-- ==== Sys2Proof/Word.lean ====
section
/-! DEFINITION. The words of the PX-1608: bytes, the 16-bit counts, and sets carried as bitmaps (spec 10_message_formats.md R156). -/

namespace Sys2Proof

/-- One byte of a message frame. -/
abbrev Byte := BitVec 8

/-- A 16-bit quantity: a frame number, a transition number, an open tag, a column mask (R156). -/
abbrev Word16 := BitVec 16

/-- A group number, 0 to 31 (00_scope.md section 5). -/
abbrev Group := Fin 32

/-- A key number, column × 8 + row, 0 to 127. -/
abbrev Key := Fin 128

/-- A lamp number, column × 8 + lamp line, 0 to 127. -/
abbrev Lamp := Fin 128

/-- A drive line, D0 to D15. -/
abbrev Column := Fin 16

/-- A set of groups, one bit per group number, as a NOTICE carries it (R156). -/
abbrev GroupSet := BitVec 32

/-- A set of keys, one bit per key number, as a SNAPSHOT reply carries it (R156). -/
abbrev KeySet := BitVec 128

/-- Most significant byte of a 16-bit quantity: the first one sent (R156). -/
def hiByte (w : Word16) : Byte := w.extractLsb' 8 8

/-- Least significant byte of a 16-bit quantity: the second one sent (R156). -/
def loByte (w : Word16) : Byte := w.extractLsb' 0 8

/-- The 16-bit quantity of two bytes, most significant byte first (R156). -/
def wordOf (hi lo : Byte) : Word16 := hi ++ lo

end Sys2Proof
end

