-- ==== Sys2Proof/Config.lean ====
section
/-! DEFINITION. What the part fixes (capacities, part identity) and the one free value of the model. -/

namespace Sys2Proof

/-- FREE VALUE. Which of two events that meet inside one step is taken first, at the n-th such meeting. The manual allows both orders (R140, R41) and
gives no rule. Nothing can be proved of its value. (notes/assumptions/6.md) -/
opaque Config.race : Nat → Bool

namespace Config

/-- Capacity of a port's event queue (R82). -/
def queueCapacity : Nat := 64

/-- Ceiling of the loss count (R83). -/
def lossCeiling : Nat := 255

/-- Ceiling of the credit count (R86, R91). -/
def creditCeiling : Nat := 127

/-- Places of a reply queue (R119). -/
def replyPlaces : Nat := 4

/-- Capacity of a resend list, the resend window (R121). -/
def resendCapacity : Nat := 8

/-- Expiries of the retransmit timer that lose the session (R123, R126). -/
def retryLimit : Nat := 4

/-- Most records of one REPORT (R87). -/
def reportRecords : Nat := 8

/-- Replies in a row after which a waiting NOTICE or REPORT goes first (R135, R136). -/
def replyRun : Nat := 4

/-- Ack holdoff, in ms (R127). -/
def ackHoldoffMs : Nat := 2

/-- The sequence numbers up to and including the last accepted one that make a request a duplicate (R118). -/
def duplicateWindow : Nat := 8

/-- Ceiling of the idle count (R5) and of a key's stuck count (R34). -/
def countCeiling : Nat := 65535

/-- The SYNC byte (R110). -/
def syncByte : Byte := 0xA7

/-- Smallest and largest LEN of a frame (R110). -/
def lenMin : Nat := 3
def lenMax : Nat := 67

/-- Family code of the part (R164). -/
def familyCode : Word16 := 0x1608

/-- The part identity of an OPEN reply: family code, revision, drive lines, sense lines, ports, event queue capacity, resend window (R164). -/
def partIdentity : List Byte := [hiByte familyCode, loByte familyCode, 0x01, 16, 8, 3, 64, 8]

end Config

end Sys2Proof
end

