-- ==== Sys2Proof/Syntax.lean ====
section
/-! DEFINITION. The commands of the PX-1608: one constructor per row of spec/opcode_table.json, with the row's operands. -/

namespace Sys2Proof

/-- The three serial ports (00_scope.md section 5). -/
inductive Port where
  | p0
  | p1
  | p2
  deriving DecidableEq, Repr

/-- A message from a controller as the framer delivers it: TYPE, SEQ, ACK and payload (R110). LEN is the payload's length plus 3. -/
structure RxFrame where
  typ : Byte
  seq : Byte
  ack : Byte
  payload : List Byte
  deriving DecidableEq, Repr

/-- TYPE codes of the messages a controller sends (R157). -/
def typeAck : Byte := 0x00
def typeOpen : Byte := 0x01
def typeClose : Byte := 0x02
def typeGrant : Byte := 0x03
def typeJoin : Byte := 0x04
def typeLeave : Byte := 0x05
def typeSnapshot : Byte := 0x06
def typeLamps : Byte := 0x07
def typeStatus : Byte := 0x08
def typeMapKeys : Byte := 0x10
def typeMapLamps : Byte := 0x11
def typeGroupSetup : Byte := 0x12
def typeDissolve : Byte := 0x13
def typeScanSetup : Byte := 0x14
def typeScanControl : Byte := 0x15
def typeReset : Byte := 0x16

/-- A TYPE of the controller's table other than ACK: 0x01 to 0x08 or 0x10 to 0x16 (R161). -/
def knownRequestType (t : Byte) : Bool :=
  (1 ≤ t.toNat && t.toNat ≤ 8) || (16 ≤ t.toNat && t.toNat ≤ 22)

/-- The commands, one constructor per row of the table. A request row is the arrival of a good frame of that TYPE on a port (log 1): its SEQ, its ACK
byte and its payload as sent, right or wrong in length and value. The three SCAN CONTROL rows carry what follows the operation byte (log 2). `sense`
is the level of S0 to S7, bit r for Sr, 1 = high (log 12). -/
inductive Instr where
  /-- NRST (R155): a low pulse on nRST, with the straps BR1 BR0 at this level. -/
  | nrst (straps : BitVec 2)
  /-- POWER_UP (R155). -/
  | powerUp (straps : BitVec 2)
  /-- OPEN (R117, R143). -/
  | openSession (p : Port) (seq ack : Byte) (payload : List Byte)
  /-- CLOSE (R146). -/
  | close (p : Port) (seq ack : Byte) (payload : List Byte)
  /-- GRANT (R91). -/
  | grant (p : Port) (seq ack : Byte) (payload : List Byte)
  /-- JOIN (R49). -/
  | join (p : Port) (seq ack : Byte) (payload : List Byte)
  /-- LEAVE (R52). -/
  | leave (p : Port) (seq ack : Byte) (payload : List Byte)
  /-- SNAPSHOT (R76). -/
  | snapshot (p : Port) (seq ack : Byte) (payload : List Byte)
  /-- SNAPSHOT_READ (R78): the Key Table takes the read of the port's SNAPSHOT in flight. -/
  | snapshotRead (p : Port)
  /-- LAMPS (R104). -/
  | lamps (p : Port) (seq ack : Byte) (payload : List Byte)
  /-- STATUS (R152). -/
  | status (p : Port) (seq ack : Byte) (payload : List Byte)
  /-- MAP_KEYS (R38). -/
  | mapKeys (p : Port) (seq ack : Byte) (payload : List Byte)
  /-- MAP_LAMPS (R102). -/
  | mapLamps (p : Port) (seq ack : Byte) (payload : List Byte)
  /-- GROUP_SETUP (R48). -/
  | groupSetup (p : Port) (seq ack : Byte) (payload : List Byte)
  /-- DISSOLVE (R54). -/
  | dissolve (p : Port) (seq ack : Byte) (payload : List Byte)
  /-- SCAN_SETUP (R11). -/
  | scanSetup (p : Port) (seq ack : Byte) (payload : List Byte)
  /-- SCAN_CONTROL_START (R13). -/
  | scanControlStart (p : Port) (seq ack : Byte) (extra : List Byte)
  /-- SCAN_CONTROL_HALT (R15). -/
  | scanControlHalt (p : Port) (seq ack : Byte) (extra : List Byte)
  /-- SCAN_CONTROL_WATCH (R14). -/
  | scanControlWatch (p : Port) (seq ack : Byte) (extra : List Byte)
  /-- RESET (R153). -/
  | reset (p : Port) (seq ack : Byte) (payload : List Byte)
  /-- UNKNOWN_TYPE_REQUEST (R161). -/
  | unknownTypeRequest (p : Port) (typ seq ack : Byte) (payload : List Byte)
  /-- ACK (R115). -/
  | ack (p : Port) (seq ack : Byte) (payload : List Byte)
  /-- BAD_CRC_FRAME (R113): the framer takes again the bytes of the collected frame whose CRC did not match. -/
  | badCrcFrame (p : Port)
  /-- GAP_TIMER_EXPIRY (R114). -/
  | gapTimerExpiry (p : Port)
  /-- SCAN_FRAME_COMPLETION (R4). -/
  | scanFrameCompletion
  /-- WATCH_SAMPLE (R8). -/
  | watchSample (sense : BitVec 8)
  /-- LIT_DEMAND (R9): the Matrix Scanner takes a lit demand that was signalled. -/
  | litDemand
  /-- ROUTE_TRANSITION (R62): the Dispatcher routes the oldest transition waiting. -/
  | routeTransition
  /-- RETRANSMIT_TIMER_EXPIRY (R123). -/
  | retransmitTimerExpiry (p : Port)
  /-- ACK_HOLDOFF_EXPIRY (R127). -/
  | ackHoldoffExpiry (p : Port)
  /-- FRAME_TRANSMIT_END (R131). -/
  | frameTransmitEnd (p : Port)
  /-- ARRIVING_BYTE (R112): a byte on the port's receive line, with or without a framing fault (stop bit low). -/
  | arrivingByte (p : Port) (b : Byte) (framingFault : Bool)
  /-- COLUMN_SLOT_END (R3). -/
  | columnSlotEnd (sense : BitVec 8)
  deriving DecidableEq, Repr

/-- The good frame that a frame command stands for, with its port; none for the other commands. -/
def Instr.frame? : Instr → Option (Port × RxFrame)
  | .nrst _ => none
  | .powerUp _ => none
  | .openSession p seq a payload => some (p, ⟨typeOpen, seq, a, payload⟩)
  | .close p seq a payload => some (p, ⟨typeClose, seq, a, payload⟩)
  | .grant p seq a payload => some (p, ⟨typeGrant, seq, a, payload⟩)
  | .join p seq a payload => some (p, ⟨typeJoin, seq, a, payload⟩)
  | .leave p seq a payload => some (p, ⟨typeLeave, seq, a, payload⟩)
  | .snapshot p seq a payload => some (p, ⟨typeSnapshot, seq, a, payload⟩)
  | .snapshotRead _ => none
  | .lamps p seq a payload => some (p, ⟨typeLamps, seq, a, payload⟩)
  | .status p seq a payload => some (p, ⟨typeStatus, seq, a, payload⟩)
  | .mapKeys p seq a payload => some (p, ⟨typeMapKeys, seq, a, payload⟩)
  | .mapLamps p seq a payload => some (p, ⟨typeMapLamps, seq, a, payload⟩)
  | .groupSetup p seq a payload => some (p, ⟨typeGroupSetup, seq, a, payload⟩)
  | .dissolve p seq a payload => some (p, ⟨typeDissolve, seq, a, payload⟩)
  | .scanSetup p seq a payload => some (p, ⟨typeScanSetup, seq, a, payload⟩)
  | .scanControlStart p seq a extra => some (p, ⟨typeScanControl, seq, a, 0 :: extra⟩)
  | .scanControlHalt p seq a extra => some (p, ⟨typeScanControl, seq, a, 1 :: extra⟩)
  | .scanControlWatch p seq a extra => some (p, ⟨typeScanControl, seq, a, 2 :: extra⟩)
  | .reset p seq a payload => some (p, ⟨typeReset, seq, a, payload⟩)
  | .unknownTypeRequest p typ seq a payload => some (p, ⟨typ, seq, a, payload⟩)
  | .ack p seq a payload => some (p, ⟨typeAck, seq, a, payload⟩)
  | .badCrcFrame _ => none
  | .gapTimerExpiry _ => none
  | .scanFrameCompletion => none
  | .watchSample _ => none
  | .litDemand => none
  | .routeTransition => none
  | .retransmitTimerExpiry _ => none
  | .ackHoldoffExpiry _ => none
  | .frameTransmitEnd _ => none
  | .arrivingByte _ _ _ => none
  | .columnSlotEnd _ => none

end Sys2Proof
end

