-- ==== Sys2Proof/WellFormed.lean ====
section
/-! DEFINITION. Which terms of Instr stand for something that can reach the part: the checks on a command as syntax. -/

namespace Sys2Proof

/-- Most payload bytes of a frame: LEN is at most 67 (R110). -/
def maxPayload : Nat := Config.lenMax - Config.lenMin

/-- A frame's payload fits its LEN byte (R110). -/
def RxFrame.fits (f : RxFrame) : Bool := f.payload.length ≤ maxPayload

/-- A command is well formed when its frame fits (a payload of at most 64 bytes, R110) and, for UNKNOWN_TYPE_REQUEST, when its TYPE is neither ACK nor
a TYPE of the controller's table (R161). -/
def Instr.wellFormed (i : Instr) : Bool :=
  (match i.frame? with
    | some (_, f) => f.fits
    | none => true) &&
  (match i with
    | .unknownTypeRequest _ typ _ _ _ => !knownRequestType typ && typ != typeAck
    | _ => true)

end Sys2Proof
end

