-- ==== Sys2Proof/Decode.lean ====
section
/-! DEFINITION. The command that a word of the opcode table's bits spells. spec/opcode_table.json gives bits for no row (its "fields" are empty and no
row has "fixed"), so no word spells a command (notes/assumptions/25.md). The part's own message layouts are decoded in Machine/Operands.lean. -/

namespace Sys2Proof

/-- No row of the table gives bits: there is nothing to read. -/
def decodeTableWord (_nbits _w : Nat) : Option Instr := none

end Sys2Proof
end

