-- ==== Sys2Proof/Machine/State.lean ====
section
/-! DEFINITION. Everything the spec gives the PX-1608 to hold, block by block (00_scope.md section 3), as plain data, with its values after reset. -/

namespace Sys2Proof.Machine

/-! ## One of each port -/

/-- One value for each of P0, P1 and P2. -/
structure PerPort (α : Type) where
  p0 : α
  p1 : α
  p2 : α
  deriving DecidableEq, Repr

/-- The value of one port. -/
def PerPort.get {α : Type} (x : PerPort α) : Port → α
  | .p0 => x.p0
  | .p1 => x.p1
  | .p2 => x.p2

/-- The values with one port's replaced. -/
def PerPort.set {α : Type} (x : PerPort α) (p : Port) (a : α) : PerPort α :=
  match p with
  | .p0 => { x with p0 := a }
  | .p1 => { x with p1 := a }
  | .p2 => { x with p2 := a }

/-- The same value for every port. -/
def PerPort.all {α : Type} (a : α) : PerPort α := ⟨a, a, a⟩

/-! ## Timers -/

/-- A timer: stopped, or armed with its period in ms. The model has no clock: an expiry is a command. `starts` counts the times it was started, the
model's own field, so that a restart is told from running on (log 5). -/
structure Timer where
  armed : Option Nat
  starts : Nat
  deriving DecidableEq, Repr

/-- Whether the timer runs. -/
def Timer.running (t : Timer) : Bool := t.armed.isSome

/-- Start or restart with a period in ms. -/
def Timer.start (t : Timer) (ms : Nat) : Timer := { armed := some ms, starts := t.starts + 1 }

/-- Stop. -/
def Timer.stop (t : Timer) : Timer := { t with armed := none }

/-- A timer after reset. -/
def Timer.atReset : Timer := { armed := none, starts := 0 }

/-! ## Names of fixed lists (R157) -/

/-- Scan states (section 1.3). -/
inductive ScanState where
  | halted
  | active
  | watch
  deriving DecidableEq, Repr

/-- Frame periods (section 1.4). -/
inductive FramePeriod where
  | ms2
  | ms4
  | ms8
  | ms16
  deriving DecidableEq, Repr

/-- Watch periods (section 1.4). -/
inductive WatchPeriod where
  | ms16
  | ms32
  | ms64
  | ms128
  deriving DecidableEq, Repr

/-- The watch period in ms. -/
def WatchPeriod.ms : WatchPeriod → Nat
  | .ms16 => 16
  | .ms32 => 32
  | .ms64 => 64
  | .ms128 => 128

/-- Matrix wiring (00_scope.md section 6). -/
inductive MatrixType where
  | plain
  | isolated
  deriving DecidableEq, Repr

/-- Delivery modes of a member (section 3.1). -/
inductive Mode where
  | stream
  | latched
  deriving DecidableEq, Repr

/-- Session roles. -/
inductive Role where
  | user
  | admin
  deriving DecidableEq, Repr

/-- Session states (R141). -/
inductive SessionState where
  | closed
  | open
  | closing
  deriving DecidableEq, Repr

/-- Status codes of replies (R157). -/
inductive Status where
  | ok
  | badLength
  | badValue
  | unknownType
  | notAdmin
  | notMember
  | alreadyMember
  | lampLocked
  | followLamp
  | scanRunning
  | notIdle
  | busy
  | resetting
  | adminHeld
  | notScanning
  deriving DecidableEq, Repr

/-- SCAN CONTROL operations. -/
inductive ScanOp where
  | start
  | halt
  | watch
  deriving DecidableEq, Repr

/-- The four lamp modes a LAMPS entry can carry (R157). -/
inductive SwitchMode where
  | off
  | on
  | blinkA
  | blinkB
  deriving DecidableEq, Repr

/-- Lamp modes (section 6.1). The follow key is present only in FOLLOW. -/
inductive LampMode where
  | switched (m : SwitchMode)
  | follow (k : Key)
  deriving DecidableEq, Repr

/-- States of a key record (section 2.1). -/
inductive KeyState where
  | up
  | pressing
  | down
  | releasing
  | suspect
  | stuck
  deriving DecidableEq, Repr

/-- Kinds of transition (section 2.2). -/
inductive Kind where
  | press
  | release
  | repeated
  | stuck
  deriving DecidableEq, Repr

/-- Flags of a transition (R22). -/
structure Flags where
  remapped : Bool
  halted : Bool
  wasStuck : Bool
  deriving DecidableEq, Repr

/-- No flag. -/
def Flags.none : Flags := ⟨false, false, false⟩

/-! ## Matrix Scanner -/

/-- The scan setup (section 1.4). -/
structure ScanSetup where
  framePeriod : FramePeriod
  np : Nat
  nr : Nat
  matrix : MatrixType
  columnMask : BitVec 16
  idleLimit : Nat
  watchPeriod : WatchPeriod
  stuckLimit : Nat
  deriving DecidableEq, Repr

/-- Every field at its default (section 1.4, R19). -/
def ScanSetup.default : ScanSetup :=
  { framePeriod := .ms4, np := 3, nr := 3, matrix := .plain, columnMask := 0xFFFF, idleLimit := 0, watchPeriod := .ms64, stuckLimit := 0 }

/-- A HALT in flight: port, session and SEQ of its request (R15). -/
structure HaltInFlight where
  port : Port
  session : Nat
  seq : Byte
  deriving DecidableEq, Repr

/-- Where the scanner stands in a scan frame. -/
inductive Phase where
  /-- no scan frame (HALTED, WATCH) -/
  | idle
  /-- the column slot in progress (R1) -/
  | slot (c : Column)
  /-- slot D15 has ended; the scan frame's completion is due (R4; log 11) -/
  | frameEnd
  /-- the completed frame's raw image waits for the Key Table (R4, R62) -/
  | imageWaiting
  /-- the image is taken; the halt waits for the Key Table (R16, R62) -/
  | haltWaiting
  /-- the halt is taken; its releases are being routed before HALTED is entered (R16) -/
  | haltRouting
  deriving DecidableEq, Repr

/-- The Matrix Scanner (01_matrix_scanning.md intro, R19). -/
structure Scanner where
  state : ScanState
  setup : ScanSetup
  frameNumber : Word16
  idleCount : Nat
  halt : Option HaltInFlight
  phase : Phase
  /-- sense bits recorded in the scan frame, bit k for key k; the raw image once the frame is complete (R3) -/
  recorded : BitVec 128
  watchTimer : Timer
  /-- D0 to D15, bit n for Dn, 1 = pulled low (R1) -/
  driveLines : BitVec 16
  /-- L0 to L7, bit r for Lr, 1 = driven high in the lamp interval of the slot in progress (R2; log 12) -/
  lampLines : BitVec 8
  /-- lit demands signalled by the Lamp Controller and not yet taken (R108; log 10) -/
  litDemands : Nat
  deriving DecidableEq, Repr

/-- The Matrix Scanner after reset (R19). That a lit demand signalled and not yet taken is dropped by a reset is the model's choice: R19 and R155 do not name
it (DESIGN CHOICE, log 10). -/
def Scanner.atReset : Scanner :=
  { state := .halted, setup := ScanSetup.default, frameNumber := 0, idleCount := 0, halt := none, phase := .idle, recorded := 0
    watchTimer := Timer.atReset, driveLines := 0, lampLines := 0, litDemands := 0 }

/-! ## Key Table -/

/-- A key record (section 2.1). -/
structure KeyRec where
  state : KeyState
  count : Nat
  countdown : Nat
  stuckCount : Nat
  group : Option Group
  deriving DecidableEq, Repr

/-- A key record after reset (R20). -/
def KeyRec.atReset : KeyRec := { state := .up, count := 0, countdown := 0, stuckCount := 0, group := none }

/-- The Key Table. -/
structure KeyTable where
  recs : Vector KeyRec 128
  transition : Word16
  deriving DecidableEq, Repr

/-- The Key Table after reset (R20). -/
def KeyTable.atReset : KeyTable := { recs := Vector.replicate 128 KeyRec.atReset, transition := 0 }

/-- A transition (R22). -/
structure Transition where
  number : Word16
  frame : Word16
  key : Key
  group : Option Group
  kind : Kind
  flags : Flags
  deriving DecidableEq, Repr

/-! ## Group Table -/

/-- A group record (section 3.1). The member set holds at most one entry per port and has no order, so it is one optional mode per port (R45). -/
structure GroupRec where
  delay : Nat
  interval : Nat
  members : PerPort (Option Mode)
  deriving DecidableEq, Repr

/-- A group record after reset (R45). -/
def GroupRec.atReset : GroupRec := { delay := 0, interval := 8, members := PerPort.all none }

/-! ## Lamp Controller -/

/-- A lamp record (section 6.1). -/
structure LampRec where
  group : Option Group
  mode : LampMode
  deriving DecidableEq, Repr

/-- A lamp record after reset (R97). -/
def LampRec.atReset : LampRec := { group := none, mode := .switched .off }

/-! ## Requests -/

/-- A request accepted by a Link Unit: its port, the session it was accepted under, and the frame's TYPE, SEQ and payload (R118, R47). -/
structure Request where
  port : Port
  session : Nat
  typ : Byte
  seq : Byte
  payload : List Byte
  deriving DecidableEq, Repr

/-- What a request asks once its payload has been decoded (R158 to R160). -/
inductive Ask where
  | close
  | grant (n : Nat)
  | join (g : Group) (m : Mode)
  | leave (g : Group)
  | snapshot (g : Group)
  | lamps (entries : List (Lamp × SwitchMode))
  | status
  | mapKeys (entries : List (Key × Option Group))
  | mapLamps (entries : List (Lamp × Option Group × Option Key))
  | groupSetup (g : Group) (delay interval : Nat)
  | dissolve (g : Group)
  | scanSetup (su : ScanSetup)
  | scanControl (op : ScanOp)
  | reset
  deriving DecidableEq, Repr

/-- An accepted request that the Session Manager has not yet taken. `passed`: it was accepted before a RESET that the Session Manager has since taken from
another port, so the reset in flight does not refuse it (R150, R153; log 30). -/
structure Queued where
  req : Request
  passed : Bool
  deriving DecidableEq, Repr

/-- A request handed to its owner, decoded. -/
structure Handed where
  req : Request
  ask : Ask
  deriving DecidableEq, Repr

/-! ## Dispatcher -/

/-- A SNAPSHOT in flight between its arm step and its read (R78). -/
structure SnapshotInFlight where
  req : Request
  group : Group
  deriving DecidableEq, Repr

/-- The Dispatcher: the transitions handed to it and not yet routed, oldest first (R62), and each port's SNAPSHOT in flight (R79, R81). -/
structure Dispatcher where
  waiting : List Transition
  snapshots : PerPort (Option SnapshotInFlight)
  deriving DecidableEq, Repr

/-- The Dispatcher after reset (R62). -/
def Dispatcher.atReset : Dispatcher := { waiting := [], snapshots := PerPort.all none }

/-! ## Delivery Unit -/

/-- A record of an event queue: a transition posted by the Dispatcher (R65), or a LOSS record (R88). -/
inductive EventRec where
  | event (t : Transition)
  | loss (number frame : Word16) (count : Nat)
  deriving DecidableEq, Repr

/-- A port's Delivery Unit: event queue, loss count, credit count and notice set (05 intro, 04 section 4.4). -/
structure Delivery where
  queue : List EventRec
  loss : Nat
  credits : Nat
  armed : GroupSet
  changed : GroupSet
  dissolved : GroupSet
  scanEntry : Option ScanState
  deriving DecidableEq, Repr

/-- A Delivery Unit after reset, and at a session's end (R72, R94, R95). -/
def Delivery.empty : Delivery :=
  { queue := [], loss := 0, credits := 0, armed := 0, changed := 0, dissolved := 0, scanEntry := none }

/-! ## Link Unit -/

/-- Data of a REPLY after its status (R163). -/
inductive ReplyData where
  | none
  | identity
  | credits (n : Nat)
  | removed (n : Nat)
  | transition (n : Word16)
  | snapshot (g : Group) (down stuck suspect : KeySet) (frame transition : Word16)
  | status (scan : ScanState) (frame transition : Word16) (credits queue loss resend : Nat) (role : Role) (admin : Option Port)
  | scan (st : ScanState)
  deriving DecidableEq, Repr

/-- A reply: the session it belongs to, TYPE and SEQ of the request it answers, status and data (R120, R163). -/
structure Reply where
  session : Nat
  typ : Byte
  seq : Byte
  status : Status
  data : ReplyData
  deriving DecidableEq, Repr

/-- What a frame of the part carries (R157). -/
inductive Body where
  | reply (r : Reply)
  | report (records : List EventRec)
  | notice (changed dissolved : GroupSet) (scan : Option ScanState)
  | ack
  | noSession
  | openRefused (st : Status)
  deriving DecidableEq, Repr

/-- A frame as chosen by the transmitter (R138). LEN and CRC are computed from it. -/
structure TxFrame where
  seq : Byte
  ack : Byte
  body : Body
  deriving DecidableEq, Repr

/-- A frame of the resend list: its SEQ and the contents fixed at its first choice (R121). -/
structure SentFrame where
  seq : Byte
  body : Body
  deriving DecidableEq, Repr

/-- The transmit line (R131): IDLE, or SENDING a frame with this many bytes left. No row of the table is the end of one byte, so the count stays at the
frame's length until FRAME_TRANSMIT_END (log 5). -/
inductive Line where
  | idle
  | sending (f : TxFrame) (remaining : Nat)
  deriving DecidableEq, Repr

/-- Framer states (R112). -/
inductive FramerState where
  | hunt
  | collect
  deriving DecidableEq, Repr

/-- A byte of the receive line, with its framing fault (R112). -/
structure RxByte where
  value : Byte
  fault : Bool
  deriving DecidableEq, Repr

/-- The receive framer (R112 to R114). A frame whose CRC did not match stays whole in the buffer until BAD_CRC_FRAME; bytes of the line that arrive
meanwhile wait in `backlog` (R113; log 15). The gap timer, while it runs, always measures from the last byte that came from the line (R114). -/
structure Framer where
  state : FramerState
  buffer : List Byte
  gapRunning : Bool
  backlog : List RxByte
  deriving DecidableEq, Repr

/-- The framer after reset (R130). -/
def Framer.atReset : Framer := { state := .hunt, buffer := [], gapRunning := false, backlog := [] }

/-- A Link Unit with its transmitter (the table at the head of 07; R131). -/
structure Link where
  framer : Framer
  lastAccepted : Byte
  openMark : Bool
  /-- produced replies waiting to be sent, oldest first -/
  replies : List Reply
  /-- reply places held for replies not yet produced -/
  held : Nat
  resend : List SentFrame
  nextSeq : Byte
  /-- RTO in ms -/
  rto : Nat
  retransmit : Timer
  retry : Nat
  /-- none, or the place in the resend list of the burst's next frame (log 23) -/
  burst : Option Nat
  ackOwed : Bool
  holdoff : Timer
  noSession : Bool
  openRefused : Option Status
  replyRun : Nat
  line : Line
  deriving DecidableEq, Repr

/-- A Link Unit after reset (07 head table, R130, R131). -/
def Link.atReset : Link :=
  { framer := Framer.atReset, lastAccepted := 0, openMark := false, replies := [], held := 0, resend := [], nextSeq := 0, rto := 10
    retransmit := Timer.atReset, retry := 0, burst := none, ackOwed := false, holdoff := Timer.atReset, noSession := false
    openRefused := none, replyRun := 0, line := .idle }

/-! ## Session Manager -/

/-- A session record (R141). The identity is a counter, none before the first session since a full reset; it stays with the record after the session's
end, until the next one (log 14). -/
structure Session where
  state : SessionState
  role : Option Role
  tag : Option Word16
  identity : Option Nat
  deriving DecidableEq, Repr

/-- A session record after reset (R155). -/
def Session.atReset : Session := { state := .closed, role := none, tag := none, identity := none }

/-- The Session Manager (09 intro): session records, admin claim, reset in flight; each port's accepted requests it has not yet taken, and the
request handed to an owner that has not yet taken it (R151). -/
structure Manager where
  sessions : PerPort Session
  adminClaim : Option Port
  resetInFlight : Option (Port × Nat)
  inbox : PerPort (List Queued)
  handed : PerPort (Option Handed)
  deriving DecidableEq, Repr

/-- The Session Manager after reset (R155). -/
def Manager.atReset : Manager :=
  { sessions := PerPort.all Session.atReset, adminClaim := none, resetInFlight := none, inbox := PerPort.all [], handed := PerPort.all none }

/-! ## Pins -/

/-- The strap pins BR1 BR0 and the bit-rate code taken from them at the last reset (00_scope.md section 6, R130). -/
structure Pins where
  straps : BitVec 2
  bitRate : BitVec 2
  deriving DecidableEq, Repr

/-! ## The part -/

/-- The state of the PX-1608. `races` is the model's own counter of meetings decided by Config.race (log 6); `pending` is the queue of commands. -/
structure State where
  scan : Scanner
  keys : KeyTable
  groups : Vector GroupRec 32
  disp : Dispatcher
  delivery : PerPort Delivery
  lamps : Vector LampRec 128
  link : PerPort Link
  mgr : Manager
  pins : Pins
  races : Nat
  pending : List Instr
  deriving DecidableEq, Repr

/-- The part right after reset (R155, R19, R20, R45, R62, R72, R95, R97, R130, R131), with the straps at 0 (log 13) and no command waiting. -/
def State.reset : State :=
  { scan := Scanner.atReset
    keys := KeyTable.atReset
    groups := Vector.replicate 32 GroupRec.atReset
    disp := Dispatcher.atReset
    delivery := PerPort.all Delivery.empty
    lamps := Vector.replicate 128 LampRec.atReset
    link := PerPort.all Link.atReset
    mgr := Manager.atReset
    pins := { straps := 0, bitRate := 0 }
    races := 0
    pending := [] }

/-! ## Outcomes -/

/-- Faults. The spec gives the part no fault, so there is none: no command raises one. -/
inductive Fault where
  deriving DecidableEq, Repr

/-- Refusals. -/
inductive Refusal where
  /-- A command whose meaning is not in the model. Raised only by an arm of exec that names its row; no arm does. Safe: nothing is claimed of it. -/
  | notModelled (mnemonic : String)
  deriving DecidableEq, Repr

end Sys2Proof.Machine
end

