-- ==== Sys2Proof/Machine/Operands.lean ====
section
/-! DEFINITION. The operand forms: codes of named fields (R157), and the payloads of the requests read into what they ask (R158 to R162) and written
from it. -/

namespace Sys2Proof.Machine

/-! ## Codes of named fields (R157) -/

def Role.code : Role → Byte
  | .user => 0
  | .admin => 1

def Mode.code : Mode → Byte
  | .stream => 0
  | .latched => 1

def SwitchMode.code : SwitchMode → Byte
  | .off => 0
  | .on => 1
  | .blinkA => 2
  | .blinkB => 3

def MatrixType.code : MatrixType → Byte
  | .plain => 0
  | .isolated => 1

def FramePeriod.code : FramePeriod → Byte
  | .ms2 => 0
  | .ms4 => 1
  | .ms8 => 2
  | .ms16 => 3

def WatchPeriod.code : WatchPeriod → Byte
  | .ms16 => 0
  | .ms32 => 1
  | .ms64 => 2
  | .ms128 => 3

def ScanOp.code : ScanOp → Byte
  | .start => 0
  | .halt => 1
  | .watch => 2

def ScanState.code : ScanState → Byte
  | .halted => 0
  | .active => 1
  | .watch => 2

def portCode : Port → Byte
  | .p0 => 0
  | .p1 => 1
  | .p2 => 2

def Kind.code : Kind → Byte
  | .press => 1
  | .release => 2
  | .repeated => 3
  | .stuck => 4

def Flags.code (f : Flags) : Byte :=
  (if f.remapped then 1 else 0) ||| (if f.halted then 2 else 0) ||| (if f.wasStuck then 4 else 0)

def Status.code : Status → Byte
  | .ok => 0x00
  | .badLength => 0x01
  | .badValue => 0x02
  | .unknownType => 0x03
  | .notAdmin => 0x04
  | .notMember => 0x05
  | .alreadyMember => 0x06
  | .lampLocked => 0x07
  | .followLamp => 0x08
  | .scanRunning => 0x09
  | .notIdle => 0x0A
  | .busy => 0x0B
  | .resetting => 0x0C
  | .adminHeld => 0x0D
  | .notScanning => 0x0E

/-- One byte of a count, a number or an index (R156). -/
def byteOf (n : Nat) : Byte := BitVec.ofNat 8 n

/-- A group where none is allowed: 0 to 31, or 255 (R157). -/
def groupCode : Option Group → Byte
  | some g => byteOf g.val
  | none => 255

/-- A follow key: 0 to 127, or 255 (R157). -/
def followCode : Option Key → Byte
  | some k => byteOf k.val
  | none => 255

/-! ## Reading fields, each against its own range (R162) -/

def readRole (b : Byte) : Option Role :=
  if b = 0 then some .user else if b = 1 then some .admin else none

def readMode (b : Byte) : Option Mode :=
  if b = 0 then some .stream else if b = 1 then some .latched else none

def readSwitchMode (b : Byte) : Option SwitchMode :=
  if b = 0 then some .off else if b = 1 then some .on else if b = 2 then some .blinkA else if b = 3 then some .blinkB else none

def readMatrixType (b : Byte) : Option MatrixType :=
  if b = 0 then some .plain else if b = 1 then some .isolated else none

def readFramePeriod (b : Byte) : Option FramePeriod :=
  if b = 0 then some .ms2 else if b = 1 then some .ms4 else if b = 2 then some .ms8 else if b = 3 then some .ms16 else none

def readWatchPeriod (b : Byte) : Option WatchPeriod :=
  if b = 0 then some .ms16 else if b = 1 then some .ms32 else if b = 2 then some .ms64 else if b = 3 then some .ms128 else none

def readScanOp (b : Byte) : Option ScanOp :=
  if b = 0 then some .start else if b = 1 then some .halt else if b = 2 then some .watch else none

/-- A group that must exist: 0 to 31 (R160, R162). -/
def readGroup (b : Byte) : Option Group :=
  if h : b.toNat < 32 then some ⟨b.toNat, h⟩ else none

/-- A group of a list entry: 0 to 31, or 255 for none (R162). -/
def readGroupOrNone (b : Byte) : Option (Option Group) :=
  if b = 255 then some none else (readGroup b).map some

/-- A key or lamp number: 0 to 127 (R162). -/
def readIndex (b : Byte) : Option (Fin 128) :=
  if h : b.toNat < 128 then some ⟨b.toNat, h⟩ else none

/-- A follow key: 0 to 127, or 255 for none (R162). -/
def readFollow (b : Byte) : Option (Option Key) :=
  if b = 255 then some none else (readIndex b).map some

/-- A debounce of 1 to 15 scan frames (R162). -/
def readDebounce (b : Byte) : Option Nat :=
  if 1 ≤ b.toNat ∧ b.toNat ≤ 15 then some b.toNat else none

/-! ## Lists of entries (R159) -/

/-- The entries of a LAMPS payload: lamp, lamp mode code. -/
def readLampEntries : List Byte → Option (List (Lamp × SwitchMode))
  | [] => some []
  | l :: m :: rest =>
    match readIndex l, readSwitchMode m, readLampEntries rest with
    | some lamp, some mode, some es => some ((lamp, mode) :: es)
    | _, _, _ => none
  | [_] => none

/-- The entries of a MAP KEYS payload: key, group or 255. -/
def readKeyEntries : List Byte → Option (List (Key × Option Group))
  | [] => some []
  | k :: g :: rest =>
    match readIndex k, readGroupOrNone g, readKeyEntries rest with
    | some key, some group, some es => some ((key, group) :: es)
    | _, _, _ => none
  | [_] => none

/-- The entries of a MAP LAMPS payload: lamp, group or 255, follow key or 255. -/
def readMapEntries : List Byte → Option (List (Lamp × Option Group × Option Key))
  | [] => some []
  | l :: g :: k :: rest =>
    match readIndex l, readGroupOrNone g, readFollow k, readMapEntries rest with
    | some lamp, some group, some follow, some es => some ((lamp, group, follow) :: es)
    | _, _, _, _ => none
  | [_] => none
  | [_, _] => none

/-! ## Decoding a request (R161) -/

/-- The outcome of decoding: what is asked, or the refusing status. -/
inductive Decoded (α : Type) where
  | ok (a : α)
  | refused (st : Status)
  deriving DecidableEq, Repr

/-- The LEN that fits a TYPE (the table of R161); false for a TYPE the part does not know. -/
def lenFits (typ : Byte) (len : Nat) : Bool :=
  if typ = typeClose ∨ typ = typeStatus ∨ typ = typeReset then len == 3
  else if typ = typeGrant ∨ typ = typeLeave ∨ typ = typeSnapshot ∨ typ = typeDissolve ∨ typ = typeScanControl then len == 4
  else if typ = typeJoin then len == 5
  else if typ = typeGroupSetup then len == 6
  else if typ = typeOpen then len == 7
  else if typ = typeScanSetup then len == 12
  else if typ = typeLamps ∨ typ = typeMapKeys then decide (5 ≤ len ∧ len ≤ 67 ∧ len % 2 = 1)
  else if typ = typeMapLamps then decide (6 ≤ len ∧ len ≤ 66 ∧ len % 3 = 0)
  else false

/-- The fields of a SCAN SETUP (R158, R162). -/
def readScanSetup : List Byte → Option ScanSetup
  | [fp, np, nr, mt, mh, ml, il, wp, sl] =>
    match readFramePeriod fp, readDebounce np, readDebounce nr, readMatrixType mt, readWatchPeriod wp with
    | some framePeriod, some np, some nr, some matrix, some watchPeriod =>
      some { framePeriod, np, nr, matrix, columnMask := wordOf mh ml, idleLimit := il.toNat, watchPeriod, stuckLimit := sl.toNat }
    | _, _, _, _, _ => none
  | _ => none

/-- The payload of a request of fitting length, each field checked against its range (R158 to R160, R162). -/
def readAsk (typ : Byte) (payload : List Byte) : Option Ask :=
  if typ = typeClose then some .close
  else if typ = typeStatus then some .status
  else if typ = typeReset then some .reset
  else if typ = typeLamps then (readLampEntries payload).map .lamps
  else if typ = typeMapKeys then (readKeyEntries payload).map .mapKeys
  else if typ = typeMapLamps then (readMapEntries payload).map .mapLamps
  else if typ = typeScanSetup then (readScanSetup payload).map .scanSetup
  else match payload with
    | [a] =>
      if typ = typeGrant then (if a.toNat ≤ 127 then some (.grant a.toNat) else none)
      else if typ = typeLeave then (readGroup a).map .leave
      else if typ = typeSnapshot then (readGroup a).map .snapshot
      else if typ = typeDissolve then (readGroup a).map .dissolve
      else if typ = typeScanControl then (readScanOp a).map .scanControl
      else none
    | [a, b] =>
      if typ = typeJoin then
        match readGroup a, readMode b with
        | some g, some m => some (.join g m)
        | _, _ => none
      else none
    | [a, b, c] =>
      if typ = typeGroupSetup then
        match readGroup a with
        | some g => if 1 ≤ c.toNat then some (.groupSetup g b.toNat c.toNat) else none
        | none => none
      else none
    | _ => none

/-- Check 2 of R150: TYPE, then length, then values; the first stage that fails gives the status (R161). -/
def decodeRequest (typ : Byte) (payload : List Byte) : Decoded Ask :=
  if !knownRequestType typ then .refused .unknownType
  else if !lenFits typ (payload.length + 3) then .refused .badLength
  else match readAsk typ payload with
    | some a => .ok a
    | none => .refused .badValue

/-- What an OPEN asks: role, RTO in tens of ms, open tag (R158). -/
structure OpenAsk where
  role : Role
  rto : Nat
  tag : Word16
  deriving DecidableEq, Repr

/-- Step 3 of R143: the decode of an OPEN (R158, R161, R162). -/
def decodeOpen (payload : List Byte) : Decoded OpenAsk :=
  match payload with
  | [r, t, h, l] =>
    match readRole r with
    | some role => if 1 ≤ t.toNat then .ok { role, rto := t.toNat, tag := wordOf h l } else .refused .badValue
    | none => .refused .badValue
  | _ => .refused .badLength

/-- The open tag of an OPEN's payload, bytes 2 and 3; a payload shorter than 4 bytes carries none (R117). -/
def openTag? : List Byte → Option Word16
  | _ :: _ :: h :: l :: _ => some (wordOf h l)
  | _ => none

/-! ## Writing requests: the payload that asks for something -/

/-- TYPE of a request. -/
def Ask.typ : Ask → Byte
  | .close => typeClose
  | .grant _ => typeGrant
  | .join _ _ => typeJoin
  | .leave _ => typeLeave
  | .snapshot _ => typeSnapshot
  | .lamps _ => typeLamps
  | .status => typeStatus
  | .mapKeys _ => typeMapKeys
  | .mapLamps _ => typeMapLamps
  | .groupSetup _ _ _ => typeGroupSetup
  | .dissolve _ => typeDissolve
  | .scanSetup _ => typeScanSetup
  | .scanControl _ => typeScanControl
  | .reset => typeReset

/-- Payload of a SCAN SETUP (R158). -/
def ScanSetup.payload (su : ScanSetup) : List Byte :=
  [su.framePeriod.code, byteOf su.np, byteOf su.nr, su.matrix.code, hiByte su.columnMask, loByte su.columnMask, byteOf su.idleLimit,
    su.watchPeriod.code, byteOf su.stuckLimit]

/-- Payload of a request (R158 to R160). -/
def Ask.payload : Ask → List Byte
  | .close => []
  | .grant n => [byteOf n]
  | .join g m => [byteOf g.val, m.code]
  | .leave g => [byteOf g.val]
  | .snapshot g => [byteOf g.val]
  | .lamps es => es.flatMap fun e => [byteOf e.1.val, e.2.code]
  | .status => []
  | .mapKeys es => es.flatMap fun e => [byteOf e.1.val, groupCode e.2]
  | .mapLamps es => es.flatMap fun e => [byteOf e.1.val, groupCode e.2.1, followCode e.2.2]
  | .groupSetup g delay interval => [byteOf g.val, byteOf delay, byteOf interval]
  | .dissolve g => [byteOf g.val]
  | .scanSetup su => su.payload
  | .scanControl op => [op.code]
  | .reset => []

/-- Every field of a scan setup in its range (section 1.4, R162). -/
def ScanSetup.inRange (su : ScanSetup) : Bool :=
  decide (1 ≤ su.np ∧ su.np ≤ 15 ∧ 1 ≤ su.nr ∧ su.nr ≤ 15 ∧ su.idleLimit ≤ 255 ∧ su.stuckLimit ≤ 255)

/-- What a request asks lies in the ranges of R162 and the entry counts of R159. -/
def Ask.inRange : Ask → Bool
  | .close => true
  | .grant n => decide (n ≤ 127)
  | .join _ _ => true
  | .leave _ => true
  | .snapshot _ => true
  | .lamps es => decide (1 ≤ es.length ∧ es.length ≤ 32)
  | .status => true
  | .mapKeys es => decide (1 ≤ es.length ∧ es.length ≤ 32)
  | .mapLamps es => decide (1 ≤ es.length ∧ es.length ≤ 21)
  | .groupSetup _ delay interval => decide (delay ≤ 255 ∧ 1 ≤ interval ∧ interval ≤ 255)
  | .dissolve _ => true
  | .scanSetup su => su.inRange
  | .scanControl _ => true
  | .reset => true

/-- Payload of an OPEN (R158). -/
def OpenAsk.payload (o : OpenAsk) : List Byte := [o.role.code, byteOf o.rto, hiByte o.tag, loByte o.tag]

/-- The requests that need the ADMIN role (check 3 of R150). -/
def Ask.adminOnly : Ask → Bool
  | .close => false
  | .grant _ => false
  | .join _ _ => false
  | .leave _ => false
  | .snapshot _ => false
  | .lamps _ => false
  | .status => false
  | .mapKeys _ => true
  | .mapLamps _ => true
  | .groupSetup _ _ _ => true
  | .dissolve _ => true
  | .scanSetup _ => true
  | .scanControl _ => true
  | .reset => true

/-! ## Sets of groups and keys (R156) -/

/-- Whether a group is in a set. -/
def inSet (s : GroupSet) (g : Group) : Bool := s.getLsbD g.val

/-- A set with a group added. -/
def addToSet (s : GroupSet) (g : Group) : GroupSet := s ||| (1#32 <<< g.val)

/-- A set with a group removed. -/
def removeFromSet (s : GroupSet) (g : Group) : GroupSet := s &&& ~~~(1#32 <<< g.val)

/-- The key number of a column and row (00_scope.md section 5). -/
def keyAt (c : Column) (r : Fin 8) : Key := ⟨c.val * 8 + r.val, by omega⟩

end Sys2Proof.Machine
end

