-- ==== Sys2Proof/Machine/Wire.lean ====
section
/-! DEFINITION. Frames as bytes: the CRC (R111), the frame's layout (R110), and the payloads of the part's own messages (R163 to R167). -/

namespace Sys2Proof.Machine

/-! ## CRC (R111) -/

/-- The generator x^16 + x^15 + x^2 + 1. -/
def crcPoly : Word16 := 0x8005

/-- The CRC register takes one data bit. -/
def crcBit (reg : Word16) (b : Bool) : Word16 :=
  if reg.msb != b then (reg <<< 1) ^^^ crcPoly else reg <<< 1

/-- The bits of a byte, most significant first. -/
def bitsMsbFirst (b : Byte) : List Bool :=
  [b.getLsbD 7, b.getLsbD 6, b.getLsbD 5, b.getLsbD 4, b.getLsbD 3, b.getLsbD 2, b.getLsbD 1, b.getLsbD 0]

/-- The CRC register takes one byte. -/
def crcByte (reg : Word16) (b : Byte) : Word16 := (bitsMsbFirst b).foldl crcBit reg

/-- The CRC register run over bytes. -/
def crcRun (reg : Word16) (bytes : List Byte) : Word16 := bytes.foldl crcByte reg

/-- The CRC of the bytes of a frame from LEN to the last payload byte. -/
def crc (bytes : List Byte) : Word16 := crcRun 0xFFFF bytes

/-! ## The frame (R110, section 10.1) -/

/-- LEN, TYPE, SEQ, ACK and payload: what the CRC covers. -/
def frameBody (typ seq ack : Byte) (payload : List Byte) : List Byte :=
  byteOf (payload.length + 3) :: typ :: seq :: ack :: payload

/-- The two CRC bytes, high byte first. -/
def crcBytes (w : Word16) : List Byte := [hiByte w, loByte w]

/-- A whole frame, SYNC to CRC. -/
def frameBytes (typ seq ack : Byte) (payload : List Byte) : List Byte :=
  Config.syncByte :: frameBody typ seq ack payload ++ crcBytes (crc (frameBody typ seq ack payload))

/-- The bytes a controller sends for a frame. -/
def frameBytesOf (f : RxFrame) : List Byte := frameBytes f.typ f.seq f.ack f.payload

/-- The good frame held in a full frame buffer (LEN to second CRC byte), if its CRC matches (R111, R113). -/
def goodFrame? (buffer : List Byte) : Option RxFrame :=
  match buffer with
  | len :: typ :: seq :: ack :: rest =>
    let payload := rest.take (len.toNat - 3)
    if rest.drop (len.toNat - 3) = crcBytes (crc (len :: typ :: seq :: ack :: payload)) then some ⟨typ, seq, ack, payload⟩ else none
  | _ => none

/-! ## Payloads of the part's messages -/

/-- A group set of 4 bytes, byte i for groups 8 i to 8 i + 7 (R156). -/
def groupSetBytes (s : GroupSet) : List Byte := (List.range 4).map fun i => s.extractLsb' (8 * i) 8

/-- A key set of 16 bytes, byte i for the keys of drive line Di (R156). -/
def keySetBytes (s : KeySet) : List Byte := (List.range 16).map fun i => s.extractLsb' (8 * i) 8

/-- A port code, or 0xFF for none (R157). -/
def adminPortCode : Option Port → Byte
  | some p => portCode p
  | none => 0xFF

/-- A scan state code, or 0xFF for none (R157, R166). -/
def scanEntryCode : Option ScanState → Byte
  | some st => st.code
  | none => 0xFF

/-- Data of a REPLY after the status (R163, R164). -/
def ReplyData.bytes : ReplyData → List Byte
  | .none => []
  | .identity => Config.partIdentity
  | .credits n => [byteOf n]
  | .removed n => [byteOf n]
  | .transition n => [hiByte n, loByte n]
  | .snapshot g down stuck suspect frame number =>
    byteOf g.val :: keySetBytes down ++ keySetBytes stuck ++ keySetBytes suspect ++
      [hiByte frame, loByte frame, hiByte number, loByte number]
  | .status st frame number creditCount queue loss resend role admin =>
    [st.code, hiByte frame, loByte frame, hiByte number, loByte number, byteOf creditCount, byteOf queue, byteOf loss, byteOf resend,
      role.code, adminPortCode admin]
  | .scan st => [st.code]

/-- Eight bytes of an event record (R165). -/
def EventRec.bytes : EventRec → List Byte
  | .event t =>
    [hiByte t.number, loByte t.number, hiByte t.frame, loByte t.frame, byteOf t.key.val, groupCode t.group, t.kind.code, t.flags.code]
  | .loss number frame count => [hiByte number, loByte number, hiByte frame, loByte frame, byteOf count, 255, 5, 0]

/-- TYPE of a frame of the part (R157). -/
def Body.typ : Body → Byte
  | .reply _ => 0x80
  | .report _ => 0x81
  | .notice _ _ _ => 0x82
  | .ack => 0x00
  | .noSession => 0x83
  | .openRefused _ => 0x84

/-- Payload of a frame of the part (R163, R165, R166, R167). -/
def Body.payload : Body → List Byte
  | .reply r => r.typ :: r.seq :: r.status.code :: r.data.bytes
  | .report records => records.flatMap EventRec.bytes
  | .notice changed dissolved scan => groupSetBytes changed ++ groupSetBytes dissolved ++ [scanEntryCode scan]
  | .ack => []
  | .noSession => []
  | .openRefused st => [st.code]

/-- The bytes of a frame on the line (R138, R111). -/
def TxFrame.bytes (f : TxFrame) : List Byte := frameBytes f.body.typ f.seq f.ack f.body.payload

/-- Bytes a frame holds the line for: LEN + 4 (R138). -/
def TxFrame.size (f : TxFrame) : Nat := f.body.payload.length + 7

end Sys2Proof.Machine
end

