-- ==== Sys2Proof/Machine/Flags.lean ====
section
/-! DEFINITION. The tests and conditions the rules compute from the state: held and lit, ghost rectangles, eligibility, the order of choice among new
frames, the judgement of a SEQ, and which session, role and membership a port has. -/

namespace Sys2Proof.Machine

/-! ## Keys -/

/-- DOWN, RELEASING or STUCK (section 2.1). -/
def KeyState.held : KeyState → Bool
  | .up => false
  | .pressing => false
  | .down => true
  | .releasing => true
  | .suspect => false
  | .stuck => true

/-- Whether every key is UP (R44). -/
def allUp (s : State) : Bool := s.keys.recs.all fun k => k.state == .up

/-- The raw bit of key (c, r) in an image (R3). -/
def rawBit (raw : BitVec 128) (c : Column) (r : Fin 8) : Bool := raw.getLsbD (keyAt c r).val

/-- Column and row of a key (00_scope.md section 5). -/
def columnOf (k : Key) : Column := ⟨k.val / 8, by omega⟩
def rowOf (k : Key) : Fin 8 := ⟨k.val % 8, by omega⟩

/-- Whether key (c, r) is in a suspect rectangle of an image of a PLAIN matrix (R25). -/
def inRectangle (raw : BitVec 128) (c : Column) (r : Fin 8) : Bool :=
  rawBit raw c r &&
    (List.finRange 16).any fun c' => c' != c && rawBit raw c' r &&
      (List.finRange 8).any fun r' => r' != r && rawBit raw c r' && rawBit raw c' r'

/-- Whether a key is in a suspect rectangle: the test is made in a PLAIN matrix only (R24, R25). -/
def suspectIn (m : MatrixType) (raw : BitVec 128) (k : Key) : Bool :=
  match m with
  | .plain => inRectangle raw (columnOf k) (rowOf k)
  | .isolated => false

/-- The set of keys whose record passes a test (R43). -/
def keysWhere (t : KeyTable) (f : KeyRec → Bool) : KeySet := BitVec.ofFnLE fun k : Key => f t.recs[k]

/-- Repeat delay of a key's group; a key with no group has 0 (R28, R35). -/
def delayOf (s : State) (g : Option Group) : Nat :=
  match g with
  | some g => s.groups[g].delay
  | none => 0

/-- Repeat interval of a key's group (R34, R35). A key with no group never asks for it. -/
def intervalOf (s : State) (g : Option Group) : Nat :=
  match g with
  | some g => s.groups[g].interval
  | none => 0

/-! ## Lamps -/

/-- ON, BLINK_A or BLINK_B: the lit modes that keep the scanner out of WATCH (R6, R109). -/
def LampMode.lit : LampMode → Bool
  | .switched .off => false
  | .switched .on => true
  | .switched .blinkA => true
  | .switched .blinkB => true
  | .follow _ => false

/-- Whether any lamp is ON, BLINK_A or BLINK_B (R109). -/
def anyLamp (s : State) : Bool := s.lamps.any fun l => l.mode.lit

/-- Lit or dark in a driven slot of the scan frame of this number (R99, the table of section 6.2). -/
def lampLit (s : State) (frame : Word16) (l : Lamp) : Bool :=
  match s.lamps[l].mode with
  | .switched .off => false
  | .switched .on => true
  | .switched .blinkA => frame.toNat % 64 < 32
  | .switched .blinkB => frame.toNat % 16 < 8
  | .follow k => s.keys.recs[k].state.held

/-- The eight lamps of a column, bit r for lamp line Lr, asked together in the scan frame of this number (R2, R99). -/
def columnLamps (s : State) (frame : Word16) (c : Column) : BitVec 8 := BitVec.ofFnLE fun r : Fin 8 => lampLit s frame (keyAt c r)

/-! ## Sessions and membership -/

/-- A port's session record. -/
def sessionOf (s : State) (p : Port) : Session := s.mgr.sessions.get p

/-- Whether a port's session is OPEN. -/
def isOpen (s : State) (p : Port) : Bool := (sessionOf s p).state == .open

/-- Whether this session is the port's present session and is OPEN (R64, R119, R141). -/
def isLive (s : State) (p : Port) (session : Nat) : Bool := isOpen s p && (sessionOf s p).identity == some session

/-- Whether a request's session is still OPEN (R47 and the like in each owner's chapter). -/
def requestLive (s : State) (r : Request) : Bool := isLive s r.port r.session

/-- The port whose session is OPEN with role ADMIN, if any (R18). -/
def adminPort (s : State) : Option Port :=
  [Port.p0, Port.p1, Port.p2].find? fun p => isOpen s p && (sessionOf s p).role == some .admin

/-- A port's mode in a group, if it is a member (section 3.1). -/
def memberMode (s : State) (g : Group) (p : Port) : Option Mode := s.groups[g].members.get p

/-- Whether a group has no members. -/
def memberless (g : GroupRec) : Bool := g.members == PerPort.all none

/-- How many members a group has (R54). -/
def memberCount (g : GroupRec) : Nat := ([Port.p0, Port.p1, Port.p2].filter fun p => (g.members.get p).isSome).length

/-! ## Delivery -/

/-- A NOTICE to offer (R73). -/
def Delivery.noticeEligible (d : Delivery) : Bool := d.changed != 0 || d.dissolved != 0 || d.scanEntry.isSome

/-- A REPORT to offer (R87). -/
def Delivery.reportEligible (d : Delivery) : Bool := decide (1 ≤ d.credits) && !d.queue.isEmpty

/-- How many records a composition takes (R87). -/
def Delivery.reportSize (d : Delivery) : Nat := min Config.reportRecords (min d.credits d.queue.length)

/-- The three new sequenced frames (R135). -/
inductive NewFrame where
  | reply
  | notice
  | report
  deriving DecidableEq, Repr

/-- Which new sequenced frame rank 4 takes, by the consecutive-reply counter and what is available (R135). -/
def newFrame? (run : Nat) (reply notice report : Bool) : Option NewFrame :=
  if run < Config.replyRun then
    if reply then some .reply else if notice then some .notice else if report then some .report else none
  else
    if notice then some .notice else if report then some .report else if reply then some .reply else none

/-- The consecutive-reply counter after rank 4 yields a frame (R136). -/
def newRun (run : Nat) (taken : NewFrame) (notice report : Bool) : Nat :=
  match taken with
  | .reply => if notice || report then min Config.replyRun (run + 1) else 0
  | .notice => 0
  | .report => 0

/-! ## Link -/

/-- Places taken in the reply queue: replies waiting and replies not yet produced (R119). -/
def Link.places (l : Link) : Nat := l.replies.length + l.held

/-- An ACK frame is due: the ack-owed flag is set and its holdoff timer has expired (R127, R137; log 22). -/
def Link.ackDue (l : Link) : Bool := l.ackOwed && !l.holdoff.running

/-- Whether the line is IDLE (R131). -/
def Line.isIdle : Line → Bool
  | .idle => true
  | .sending _ _ => false

/-- What becomes of a request's SEQ in an OPEN session (the table of R118). -/
inductive Verdict where
  | accepted
  | noPlace
  | duplicate
  | outOfWindow
  deriving DecidableEq, Repr

/-- The judgement of a SEQ against the last accepted sequence and the reply places taken (R118). -/
def judge (last : Byte) (places : Nat) (seq : Byte) : Verdict :=
  if seq = last + 1 then (if places < Config.replyPlaces then .accepted else .noPlace)
  else if (last - seq).toNat < Config.duplicateWindow then .duplicate
  else .outOfWindow

/-- The frame buffer holds a whole frame: LEN and LEN + 2 more bytes (R112). -/
def bufferFull (buffer : List Byte) : Bool :=
  match buffer with
  | [] => false
  | len :: rest => decide (len.toNat + 2 ≤ rest.length)

/-- The framer holds a collected frame that has not left it: one whose CRC did not match, to be taken again (R113). -/
def Framer.holdsBadFrame (f : Framer) : Bool := f.state == .collect && bufferFull f.buffer

/-- A frame of the resend list that carries the OK reply to a CLOSE (R115, R146; log 17). -/
def SentFrame.isCloseReply (f : SentFrame) : Bool :=
  match f.body with
  | .reply r => r.typ == typeClose && r.status == .ok
  | _ => false

/-- A frame of the resend list that carries the OK reply to a RESET (R115, R154; log 17). -/
def SentFrame.isResetReply (f : SentFrame) : Bool :=
  match f.body with
  | .reply r => r.typ == typeReset && r.status == .ok
  | _ => false

/-- How many frames an ACK byte removes from a resend list: up to and including the one of that SEQ; none when no frame has it (R115). -/
def ackedCount (resend : List SentFrame) (ack : Byte) : Nat :=
  match resend.findIdx? fun f => f.seq == ack with
  | some i => i + 1
  | none => 0

end Sys2Proof.Machine
end

