-- ==== Sys2Proof/Machine/Ops.lean ====
section
/-! DEFINITION. The operations the blocks share: replacing one port's unit, posts to a Delivery Unit, producing a reply, blanking, the removal of a port,
the teardown of a session and the full reset. -/

namespace Sys2Proof.Machine

/-! ## One port's unit -/

/-- Change one port's Link Unit. -/
def updLink (p : Port) (f : Link → Link) (s : State) : State := { s with link := s.link.set p (f (s.link.get p)) }

/-- Change one port's Delivery Unit. -/
def updDelivery (p : Port) (f : Delivery → Delivery) (s : State) : State := { s with delivery := s.delivery.set p (f (s.delivery.get p)) }

/-- Replace one port's Link Unit and Delivery Unit. -/
def setPort (p : Port) (l : Link) (d : Delivery) (s : State) : State :=
  { s with link := s.link.set p l, delivery := s.delivery.set p d }

/-- Replace one port's session record. -/
def setSession (p : Port) (x : Session) (s : State) : State := { s with mgr := { s.mgr with sessions := s.mgr.sessions.set p x } }

/-- Replace one port's list of requests not yet taken by the Session Manager. -/
def setInbox (p : Port) (rs : List Queued) (s : State) : State := { s with mgr := { s.mgr with inbox := s.mgr.inbox.set p rs } }

/-- Replace the request one port's owner has not yet taken. -/
def setHanded (p : Port) (h : Option Handed) (s : State) : State := { s with mgr := { s.mgr with handed := s.mgr.handed.set p h } }

/-- Replace one port's SNAPSHOT in flight. -/
def setSnapshot (p : Port) (x : Option SnapshotInFlight) (s : State) : State :=
  { s with disp := { s.disp with snapshots := s.disp.snapshots.set p x } }

/-- Replace one group record. -/
def setGroup (g : Group) (r : GroupRec) (s : State) : State := { s with groups := s.groups.set g.val r }

/-! ## Posts to a Delivery Unit (R64) -/

/-- A post is taken when the session it names is the port's present session and is OPEN; every post of the model names the present session, so it is
taken when that session is OPEN, and is otherwise discarded (R64; log 21). -/
def post (p : Port) (f : Delivery → Delivery) (s : State) : State :=
  if isOpen s p then updDelivery p f s else s

/-- An event record is appended, or counted as lost when the queue holds 64 records (R83). -/
def Delivery.takeRecord (r : EventRec) (d : Delivery) : Delivery :=
  if d.queue.length < Config.queueCapacity then { d with queue := d.queue ++ [r] }
  else { d with loss := min Config.lossCeiling (d.loss + 1) }

/-- A changed post: an armed group moves to the changed set (R68). -/
def Delivery.takeChanged (g : Group) (d : Delivery) : Delivery :=
  if inSet d.armed g then { d with armed := removeFromSet d.armed g, changed := addToSet d.changed g } else d

/-- An arm step: the group leaves the changed set and joins the armed set (R77). -/
def Delivery.takeArm (g : Group) (d : Delivery) : Delivery :=
  { d with changed := removeFromSet d.changed g, armed := addToSet d.armed g }

/-- The posting of a successful JOIN: a LATCHED join arms the group; either mode withdraws a dissolved entry (R50). -/
def Delivery.takeJoin (g : Group) (m : Mode) (d : Delivery) : Delivery :=
  match m with
  | .latched => { d with armed := addToSet d.armed g, dissolved := removeFromSet d.dissolved g }
  | .stream => { d with dissolved := removeFromSet d.dissolved g }

/-- The posting of a LEAVE: the group leaves the armed and changed sets (R52). -/
def Delivery.takeLeave (g : Group) (d : Delivery) : Delivery :=
  { d with armed := removeFromSet d.armed g, changed := removeFromSet d.changed g }

/-- The posting of a DISSOLVE to a former member (R54). -/
def Delivery.takeDissolve (g : Group) (d : Delivery) : Delivery :=
  { d with armed := removeFromSet d.armed g, changed := removeFromSet d.changed g, dissolved := addToSet d.dissolved g }

/-- A scan state post replaces the entry (R71). -/
def Delivery.takeScanState (st : ScanState) (d : Delivery) : Delivery := { d with scanEntry := some st }

/-- The Matrix Scanner posts a change of scan state to the port whose session is OPEN with role ADMIN; with no such port nothing is posted (R18). -/
def postScanState (s : State) : State :=
  match adminPort s with
  | some p => post p (Delivery.takeScanState s.scan.state) s
  | none => s

/-! ## Replies (R119, R149) -/

/-- A reply fills a held place and joins the waiting replies, behind every reply produced before it; a reply of a session that is not the port's present
OPEN session is discarded and fills no place (R119). A reply finds no held place in no run of the part (log 18). -/
def produce (p : Port) (r : Reply) (s : State) : State :=
  if isLive s p r.session && decide (0 < (s.link.get p).held) then
    updLink p (fun l => { l with held := l.held - 1, replies := l.replies ++ [r] }) s
  else s

/-- The reply to a request (R120). -/
def replyTo (r : Request) (st : Status) (data : ReplyData) (s : State) : State :=
  produce r.port { session := r.session, typ := r.typ, seq := r.seq, status := st, data } s

/-- The ack-owed flag is set; the holdoff starts when the flag goes from clear to set (R127). -/
def Link.oweAck (l : Link) : Link :=
  if l.ackOwed then l else { l with ackOwed := true, holdoff := l.holdoff.start Config.ackHoldoffMs }

/-! ## Blanking and the end of memberships -/

/-- Blanking of one lamp: ON, BLINK_A and BLINK_B become OFF (R107). -/
def LampRec.blank (l : LampRec) : LampRec := if l.mode.lit then { l with mode := .switched .off } else l

/-- The Lamp Controller takes the blanking of a group left without members (R107). -/
def blank (g : Group) (s : State) : State :=
  { s with lamps := s.lamps.map fun l => if l.group = some g then l.blank else l }

/-- One member entry is removed, and the group's lamps are blanked when that leaves it without members (R56). -/
def removeMember (p : Port) (s : State) (g : Group) : State :=
  if (memberMode s g p).isSome then
    let r : GroupRec := { s.groups[g] with members := s.groups[g].members.set p none }
    let s' := setGroup g r s
    if memberless r then blank g s' else s'
  else s

/-- The removal of a port from every group at its session's end, in increasing group number (R57). -/
def removePort (p : Port) (s : State) : State := (List.finRange 32).foldl (removeMember p) s

/-! ## Teardown (R148) -/

/-- The teardown of a port's session, leaving it in this state: role and open tag cleared, the admin claim released, the port removed from every group, its
Delivery Unit emptied (R148, R57, R72, R94). Requests of the session not yet taken by the Session Manager are dropped: they are not checked, routed or
answered (R151; log 20). The Link Unit's part is the caller's. -/
def teardown (p : Port) (st : SessionState) (s : State) : State :=
  let s1 := setSession p { sessionOf s p with state := st, role := none, tag := none } s
  let s2 := { s1 with mgr := { s1.mgr with adminClaim := if s1.mgr.adminClaim = some p then none else s1.mgr.adminClaim } }
  let s3 := setInbox p [] s2
  updDelivery p (fun _ => Delivery.empty) (removePort p s3)

/-! ## Full reset (R155) -/

/-- Every block takes its reset values; the bit rate is taken again from the strap pins. No teardown, blanking, release or notice (R155). The pins, the
queue of commands and the model's counter of free values stay (log 13, 16). -/
def fullReset (s : State) : State :=
  { State.reset with pins := { straps := s.pins.straps, bitRate := s.pins.straps }, races := s.races, pending := s.pending }

end Sys2Proof.Machine
end

