-- ==== Sys2Proof/Machine/Transmit.lean ====
section
/-! DEFINITION. The transmitter of a port: the order of choice and the frames it fixes (08_transmit_selection.md), with the composition of NOTICE and
REPORT contents (R74, R87, R88). -/

namespace Sys2Proof.Machine

/-- A frame is chosen: it goes onto the line with the last accepted sequence in its ACK byte, the ack-owed flag is cleared and the holdoff stops
(R127, R138). -/
def Link.send (seq : Byte) (body : Body) (l : Link) : Link :=
  let f : TxFrame := { seq, ack := l.lastAccepted, body }
  { l with line := .sending f f.size, ackOwed := false, holdoff := l.holdoff.stop }

/-- A new sequenced frame takes the next transmit sequence and joins the resend list; the retransmit timer starts if the list was empty (R121, R122). -/
def Link.sendNew (body : Body) (l : Link) : Link :=
  Link.send l.nextSeq body
    { l with
      nextSeq := l.nextSeq + 1
      resend := l.resend ++ [{ seq := l.nextSeq, body }]
      retransmit := if l.resend.isEmpty then l.retransmit.start l.rto else l.retransmit }

/-- Rank 1: the frame at the burst position, with its SEQ and contents as at its first choice (R133, R124). Once every frame of the burst has been
chosen, none is left. -/
def rank1 (l : Link) : Option Link :=
  match l.burst with
  | some i =>
    match l.resend[i]? with
    | some f => some (Link.send f.seq f.body { l with burst := some (i + 1) })
    | none => none
  | none => none

/-- Rank 2: OPEN REFUSED (R134). -/
def rank2 (l : Link) : Option Link :=
  match l.openRefused with
  | some st => some (Link.send 0 (.openRefused st) { l with openRefused := none })
  | none => none

/-- Rank 3: NO SESSION (R134). -/
def rank3 (l : Link) : Option Link :=
  if l.noSession then some (Link.send 0 .noSession { l with noSession := false }) else none

/-- Rank 5: an ACK frame (R137). -/
def rank5 (l : Link) : Option Link :=
  if l.ackDue then some (Link.send 0 .ack l) else none

/-- What the notice set holds after the composition of a NOTICE: the armed set alone (R74). -/
def Delivery.afterNotice (d : Delivery) : Delivery := { d with changed := 0, dissolved := 0, scanEntry := none }

/-- What a Delivery Unit holds after the composition of a REPORT: n records and credits fewer, and a LOSS record with the transition counter and the
frame number of this moment when the loss count was not zero (R87, R88). -/
def Delivery.afterReport (number frame : Word16) (d : Delivery) : Delivery :=
  let n := d.reportSize
  { d with
    queue := d.queue.drop n ++ (if d.loss = 0 then [] else [.loss number frame d.loss])
    credits := d.credits - n
    loss := 0 }

/-- Rank 4: a new sequenced frame, while no burst is in progress and the resend list holds fewer than 8 frames (R132, R135, R136). The unit is asked and
composes in one event here, so a composition never finds nothing to offer (log 19). `number` and `frame` are the transition counter and the frame number at
this moment. -/
def rank4 (number frame : Word16) (l : Link) (d : Delivery) : Option (Link × Delivery) :=
  if l.burst.isNone && decide (l.resend.length < Config.resendCapacity) then
    match newFrame? l.replyRun (!l.replies.isEmpty) d.noticeEligible d.reportEligible with
    | some .reply =>
      match l.replies with
      | r :: rest =>
        some (Link.sendNew (.reply r)
          { l with replies := rest, replyRun := newRun l.replyRun .reply d.noticeEligible d.reportEligible }, d)
      | [] => none
    | some .notice => some (Link.sendNew (.notice d.changed d.dissolved d.scanEntry) { l with replyRun := 0 }, d.afterNotice)
    | some .report => some (Link.sendNew (.report (d.queue.take d.reportSize)) { l with replyRun := 0 }, d.afterReport number frame)
    | none => none
  else none

/-- A choice of frame at one port: the first of the ranks whose condition holds gives the frame, or nothing (R132). The Link Unit and the Delivery Unit after
it. -/
def choice (number frame : Word16) (l : Link) (d : Delivery) : Option (Link × Delivery) :=
  match rank1 l with
  | some l' => some (l', d)
  | none =>
    match rank2 l with
    | some l' => some (l', d)
    | none =>
      match rank3 l with
      | some l' => some (l', d)
      | none =>
        match rank4 number frame l d with
        | some x => some x
        | none => (rank5 l).map fun l' => (l', d)

/-- A choice of frame at a port's transmitter, on the state as it stands (R131, R132). -/
def chooseFrame (p : Port) (s : State) : Option State :=
  (choice s.keys.transition s.scan.frameNumber (s.link.get p) (s.delivery.get p)).map fun x => setPort p x.1 x.2 s

/-- The line of a port is IDLE. -/
def lineIdle (p : Port) (s : State) : Bool := (s.link.get p).line.isIdle

/-- An IDLE transmitter makes a choice; a SENDING one makes none (R131). -/
def serve (p : Port) (s : State) : State :=
  if lineIdle p s then (chooseFrame p s).getD s else s

/-- Every port's transmitter is served (log 19). -/
def serveAll (s : State) : State := serve .p2 (serve .p1 (serve .p0 s))

/-- A meeting of an IDLE transmitter's choice with what follows in the same step: the choice may be made now, with what waits, or later (R131, R140).
The free value decides; where nothing would be chosen now there is no meeting (log 6). -/
def raceChoice (p : Port) (s : State) : State :=
  if lineIdle p s then
    match chooseFrame p s with
    | some s' => if Config.race s.races then { s' with races := s.races + 1 } else { s with races := s.races + 1 }
    | none => s
  else s

end Sys2Proof.Machine
end

