-- ==== Sys2Proof/Machine/Scanner.lean ====
section
/-! DEFINITION. The Matrix Scanner (01_matrix_scanning.md): slots and lines, the scan states, SCAN SETUP and SCAN CONTROL, and what the scanner does at a scan
frame's completion before and after the Key Table. -/

namespace Sys2Proof.Machine

/-- The drive line of one column pulled low, the other fifteen released (R1). -/
def oneDriveLine (c : Column) : BitVec 16 := 1#16 <<< c.val

/-- A column slot begins: a driven slot pulls its drive line low and drives the lamp lines of the lamps the Lamp Controller calls lit, in the scan frame
after the last completed one; an idle slot does neither (R1, R2). -/
def beginSlot (c : Column) (s : State) : State :=
  let driven := s.scan.setup.columnMask.getLsbD c.val
  { s with
    scan := { s.scan with
      phase := .slot c
      driveLines := if driven then oneDriveLine c else 0
      lampLines := if driven then columnLamps s (s.scan.frameNumber + 1) c else 0 } }

/-- A scan frame begins with slot D0 and nothing recorded (R1, R3). -/
def beginFrame (s : State) : State := beginSlot 0 { s with scan := { s.scan with recorded := 0 } }

/-- The recorded bits with one column's replaced: bit 1 for a line that reads low in a driven slot; 0 for the keys of an idle slot (R3). -/
def recordColumn (driven : Bool) (sense : BitVec 8) (c : Column) (recorded : BitVec 128) : BitVec 128 :=
  let sampled : BitVec 128 := if driven then (~~~sense).zeroExtend 128 <<< (8 * c.val) else 0
  (recorded &&& ~~~(0xFF#128 <<< (8 * c.val))) ||| sampled

/-- The end of a column slot: a driven column is sampled; the next slot begins, or, after D15, the scan frame's completion is due (R1, R3; log 11). -/
def endSlot (sense : BitVec 8) (c : Column) (s : State) : State :=
  let recorded := recordColumn (s.scan.setup.columnMask.getLsbD c.val) sense c s.scan.recorded
  if h : c.val + 1 < 16 then beginSlot ⟨c.val + 1, h⟩ { s with scan := { s.scan with recorded } }
  else { s with scan := { s.scan with recorded, phase := .frameEnd, driveLines := 0, lampLines := 0 } }

/-- The scanner enters ACTIVE from HALTED or WATCH: idle count 0, the watch period timer stopped, a scan frame begun, the change posted (R8, R9, R13). -/
def enterActive (s : State) : State :=
  postScanState (beginFrame
    { s with scan := { s.scan with state := .active, idleCount := 0, watchTimer := s.scan.watchTimer.stop } })

/-- The scanner enters WATCH: no scan frame, what it recorded discarded, every line released, the watch period timer started, the change posted
(R6, R14). -/
def enterWatch (s : State) : State :=
  postScanState { s with
    scan := { s.scan with
      state := .watch, phase := .idle, recorded := 0, driveLines := 0, lampLines := 0
      watchTimer := s.scan.watchTimer.start s.scan.setup.watchPeriod.ms } }

/-- The scanner enters HALTED: no scan frame, every line released, the watch period timer stopped, the change posted (R15, R16). -/
def enterHalted (s : State) : State :=
  postScanState { s with
    scan := { s.scan with
      state := .halted, phase := .idle, recorded := 0, driveLines := 0, lampLines := 0, watchTimer := s.scan.watchTimer.stop } }

/-- The idle count after an image has been taken: one more, up to 65535, when every raw bit is 0 and every key is UP; 0 otherwise (R5). -/
def updateIdle (s : State) : State :=
  { s with
    scan := { s.scan with
      idleCount := if s.scan.recorded = 0 ∧ allUp s then min Config.countCeiling (s.scan.idleCount + 1) else 0 } }

/-- The conditions for automatic entry to WATCH, but for the HALT in flight (R6). -/
def watchDue (s : State) : Bool :=
  s.scan.setup.idleLimit != 0 && decide (s.scan.setup.idleLimit * 16 ≤ s.scan.idleCount) && allUp s && !anyLamp s

/-- The scanner's stages once the Key Table has taken the image: the idle count; then a HALT in flight hands the halt on, or WATCH is entered, or the next
scan frame begins (R4, R6, R16). -/
def afterImage (s : State) : State :=
  let s1 := updateIdle s
  if s1.scan.halt.isSome then { s1 with scan := { s1.scan with phase := .haltWaiting } }
  else if watchDue s1 then enterWatch s1
  else beginFrame s1

/-- A scan frame completes: the frame number advances and the raw image is delivered to the Key Table, which takes it when it can (R4, R62). -/
def completeFrame (s : State) : State :=
  { s with scan := { s.scan with frameNumber := s.scan.frameNumber + 1, phase := .imageWaiting } }

/-- A HALT in flight ends: HALTED is entered and posted, the HALT in flight is cleared, and its reply is produced for the recorded port and session
(R16). A choice may fall between the post and the reply (R140). -/
def endHalt (s : State) : State :=
  let s1 := enterHalted s
  match s.scan.halt with
  | some h =>
    let s2 := raceChoice h.port s1
    let s3 := { s2 with scan := { s2.scan with halt := none } }
    produce h.port { session := h.session, typ := typeScanControl, seq := h.seq, status := .ok, data := .scan s3.scan.state } s3
  | none => s1

/-- The reply of the Matrix Scanner to a SCAN CONTROL carries the scan state as it stands (R163). -/
def scanReply (r : Request) (st : Status) (s : State) : State := replyTo r st (.scan s.scan.state) s

/-- The scanner takes a SCAN SETUP: in HALTED the whole setup is replaced; otherwise SCAN_RUNNING (R11). -/
def takeScanSetup (r : Request) (su : ScanSetup) (s : State) : State :=
  if s.scan.state = .halted then replyTo r .ok .none { s with scan := { s.scan with setup := su } }
  else replyTo r .scanRunning .none s

/-- The scanner takes SCAN CONTROL START (R13, R17). -/
def takeScanStart (r : Request) (s : State) : State :=
  if s.scan.halt.isSome then scanReply r .busy s
  else match s.scan.state with
    | .active => scanReply r .ok s
    | .halted => scanReply r .ok (raceChoice r.port (enterActive s))
    | .watch => scanReply r .ok (raceChoice r.port (enterActive s))

/-- The scanner takes SCAN CONTROL HALT (R15, R17). In ACTIVE no reply is produced yet. -/
def takeScanHalt (r : Request) (s : State) : State :=
  if s.scan.halt.isSome then scanReply r .busy s
  else match s.scan.state with
    | .halted => scanReply r .ok s
    | .watch => scanReply r .ok (raceChoice r.port (enterHalted s))
    | .active => { s with scan := { s.scan with halt := some { port := r.port, session := r.session, seq := r.seq } } }

/-- The scanner takes SCAN CONTROL WATCH (R14, R17). -/
def takeScanWatch (r : Request) (s : State) : State :=
  if s.scan.halt.isSome then scanReply r .busy s
  else match s.scan.state with
    | .halted => scanReply r .notScanning s
    | .watch => scanReply r .ok s
    | .active =>
      if allUp s && !anyLamp s then scanReply r .ok (raceChoice r.port (enterWatch s))
      else scanReply r .notIdle s

/-- The scanner takes a SCAN CONTROL of any operation. -/
def takeScanControl (r : Request) (op : ScanOp) (s : State) : State :=
  match op with
  | .start => takeScanStart r s
  | .halt => takeScanHalt r s
  | .watch => takeScanWatch r s

/-- A watch sample: with no column enabled every sense line reads high (R8). -/
def watchSeesActivity (sense : BitVec 8) (s : State) : Bool := s.scan.setup.columnMask != 0 && sense != 0xFF

/-- The watch period timer expires in WATCH: activity returns the scanner to ACTIVE, else the timer restarts (R8). -/
def takeWatchSample (sense : BitVec 8) (s : State) : State :=
  if watchSeesActivity sense s then enterActive s
  else { s with scan := { s.scan with watchTimer := s.scan.watchTimer.start s.scan.setup.watchPeriod.ms } }

/-- The scanner takes a lit demand: in WATCH it returns to ACTIVE, elsewhere nothing changes (R9, R7). -/
def takeLitDemand (s : State) : State :=
  match s.scan.state with
  | .watch => enterActive s
  | .active => s
  | .halted => s

end Sys2Proof.Machine
end

