-- ==== Sys2Proof/Machine/Keys.lean ====
section
/-! DEFINITION. The Key Table (02_key_states.md): the per-key step, the taking of a raw image, MAP KEYS entries, the halt and the snapshot read. -/

namespace Sys2Proof.Machine

/-- What a step of one key emits: kind and flags (R22). -/
abbrev Emitted := Option (Kind × Flags)

/-- UP with count, repeat countdown and stuck count 0; the group stays (R31, R42). -/
def KeyRec.toUp (k : KeyRec) : KeyRec := { k with state := .up, count := 0, countdown := 0, stuckCount := 0 }

/-- A press debounce that stands at n closed images: DOWN with a PRESS when n has reached Np, with the countdown loaded from the group's delay; else
PRESSING with count n (R28, R29, R30). -/
def pressTo (su : ScanSetup) (delay n : Nat) (k : KeyRec) : KeyRec × Emitted :=
  if su.np ≤ n then ({ k with state := .down, count := 0, stuckCount := 0, countdown := delay }, some (.press, Flags.none))
  else ({ k with state := .pressing, count := n }, none)

/-- A release debounce of a key in DOWN or RELEASING that stands at n open images (R31, R32). -/
def releaseTo (su : ScanSetup) (n : Nat) (k : KeyRec) : KeyRec × Emitted :=
  if su.nr ≤ n then (k.toUp, some (.release, Flags.none))
  else ({ k with state := .releasing, count := n }, none)

/-- A key in DOWN read closed: stuck and repeat timing (R34). -/
def holdStep (su : ScanSetup) (interval : Nat) (k : KeyRec) : KeyRec × Emitted :=
  let stuck := min Config.countCeiling (k.stuckCount + 1)
  if su.stuckLimit ≠ 0 ∧ su.stuckLimit * 256 ≤ stuck then
    ({ k with state := .stuck, count := 0, stuckCount := stuck }, some (.stuck, Flags.none))
  else if k.countdown = 0 then ({ k with stuckCount := stuck }, none)
  else if k.countdown = 1 then ({ k with stuckCount := stuck, countdown := interval }, some (.repeated, Flags.none))
  else ({ k with stuckCount := stuck, countdown := k.countdown - 1 }, none)

/-- The per-key step (R28 to R36, the table of section 2.4): `raw` is the key's bit in the image, `suspect` whether it is in a suspect rectangle, `delay` and
`interval` its group's repeat values. -/
def stepKey (su : ScanSetup) (delay interval : Nat) (raw suspect : Bool) (k : KeyRec) : KeyRec × Emitted :=
  match k.state with
  | .up =>
    if suspect then ({ k with state := .suspect, count := 0 }, none)
    else if raw then pressTo su delay 1 k
    else (k, none)
  | .pressing =>
    if suspect then ({ k with state := .suspect, count := 0 }, none)
    else if raw then pressTo su delay (k.count + 1) k
    else ({ k with state := .up, count := 0 }, none)
  | .suspect =>
    if suspect then (k, none)
    else if raw then pressTo su delay 1 k
    else ({ k with state := .up, count := 0 }, none)
  | .down => if raw then holdStep su interval k else releaseTo su 1 k
  | .releasing => if raw then ({ k with state := .down, count := 0 }, none) else releaseTo su (k.count + 1) k
  | .stuck =>
    if raw then ({ k with count := 0 }, none)
    else if su.nr ≤ k.count + 1 then (k.toUp, some (.release, { Flags.none with wasStuck := true }))
    else ({ k with count := k.count + 1 }, none)

/-- A transition before it is numbered. -/
structure Emission where
  key : Key
  group : Option Group
  kind : Kind
  flags : Flags
  deriving DecidableEq, Repr

/-- Transitions numbered one after another, the first one after `n`, modulo 65536 (R21). -/
def numberFrom (n frame : Word16) : List Emission → List Transition
  | [] => []
  | e :: es =>
    { number := n + 1, frame, key := e.key, group := e.group, kind := e.kind, flags := e.flags } :: numberFrom (n + 1) frame es

/-- The Key Table emits transitions: each advances the counter and is handed to the Dispatcher in order, with this frame number (R21, R22). -/
def emit (es : List Emission) (frame : Word16) (s : State) : State :=
  { s with
    keys := { s.keys with transition := s.keys.transition + BitVec.ofNat 16 es.length }
    disp := { s.disp with waiting := s.disp.waiting ++ numberFrom s.keys.transition frame es } }

/-- One key's step in an image (R24). -/
def stepOne (s : State) (k : Key) : KeyRec × Emitted :=
  let r := s.keys.recs[k]
  stepKey s.scan.setup (delayOf s r.group) (intervalOf s r.group) (s.scan.recorded.getLsbD k.val)
    (suspectIn s.scan.setup.matrix s.scan.recorded k) r

/-- Every record replaced by a function of its key, and what that emits in increasing key number, each with the record's group (R22, R24, R42). -/
def sweep (f : Key → KeyRec × Emitted) (s : State) : State :=
  let es := (List.finRange 128).filterMap fun k =>
    (f k).2.map fun e => { key := k, group := s.keys.recs[k].group, kind := e.1, flags := e.2 : Emission }
  emit es s.scan.frameNumber { s with keys := { s.keys with recs := Vector.ofFn fun k => (f k).1 } }

/-- The Key Table takes the raw image of the scan frame just completed, as one event (R24). -/
def takeImage (s : State) : State := sweep (stepOne s) s

/-- The halt of one key: a held key is released, flagged HALTED, with WAS_STUCK for a stuck one; any other returns to UP silently (R42). -/
def haltKey (k : KeyRec) : KeyRec × Emitted :=
  (k.toUp, if k.state.held then some (.release, { Flags.none with halted := true, wasStuck := k.state == .stuck }) else none)

/-- The Key Table takes the halt (R42). -/
def takeHalt (s : State) : State := sweep (fun k => haltKey s.keys.recs[k]) s

/-- One MAP KEYS entry: a held key moved to another group is released in its old one, flagged REMAPPED, and presses anew; a key that is not held only
changes its group; an entry with the present group does nothing (R39, R40). -/
def remapKey (s : State) (e : Key × Option Group) : State :=
  let r := s.keys.recs[e.1]
  if r.group = e.2 then s
  else if r.state.held then
    let s1 := { s with
      keys := { s.keys with
        recs := s.keys.recs.set e.1.val { state := .pressing, count := 0, countdown := 0, stuckCount := 0, group := e.2 } } }
    emit [{ key := e.1, group := r.group, kind := .release, flags := { Flags.none with remapped := true, wasStuck := r.state == .stuck } }]
      s.scan.frameNumber s1
  else { s with keys := { s.keys with recs := s.keys.recs.set e.1.val { r with group := e.2 } } }

/-- The Key Table takes a MAP KEYS request: its entries in list order, then the reply with the transition counter (R38). -/
def takeMapKeys (r : Request) (es : List (Key × Option Group)) (s : State) : State :=
  let s1 := es.foldl remapKey s
  replyTo r .ok (.transition s1.keys.transition) s1

/-- A key of the group that a snapshot reports down (R43). -/
def inDownSet (g : Group) (k : KeyRec) : Bool := k.group == some g && (k.state == .down || k.state == .releasing)

/-- A key of the group that a snapshot reports stuck (R43). -/
def inStuckSet (g : Group) (k : KeyRec) : Bool := k.group == some g && k.state == .stuck

/-- A key of the group that a snapshot reports suspect (R43). -/
def inSuspectSet (g : Group) (k : KeyRec) : Bool := k.group == some g && k.state == .suspect

/-- The frame number of the last raw image the Key Table has taken: the scanner's, but for a completed scan frame whose image still waits, which has advanced
the scanner's number and not been taken (R43, R78; log 29). -/
def lastImageFrame (s : State) : Word16 := if s.scan.phase = .imageWaiting then s.scan.frameNumber - 1 else s.scan.frameNumber

/-- The snapshot read of a group: the three sets, the frame number of the last image taken and the transition number (R43). -/
def readSnapshot (g : Group) (s : State) : ReplyData :=
  .snapshot g (keysWhere s.keys (inDownSet g)) (keysWhere s.keys (inStuckSet g)) (keysWhere s.keys (inSuspectSet g))
    (lastImageFrame s) s.keys.transition

end Sys2Proof.Machine
end

