-- ==== Sys2Proof/Machine/Groups.lean ====
section
/-! DEFINITION. The Group Table (03_groups_and_membership.md): GROUP SETUP, JOIN, LEAVE and DISSOLVE. The removal of a port at session end stands in
Machine/Ops.lean. -/

namespace Sys2Proof.Machine

/-- The Group Table takes GROUP SETUP: the two repeat values are replaced, the members stay (R48). -/
def takeGroupSetup (r : Request) (g : Group) (delay interval : Nat) (s : State) : State :=
  replyTo r .ok .none (setGroup g { s.groups[g] with delay, interval } s)

/-- The Group Table takes JOIN: ALREADY_MEMBER for a member; else the port becomes a member in the mode named, its notice set takes the posting of the
join, and the reply is OK (R49, R50). -/
def takeJoin (r : Request) (g : Group) (m : Mode) (s : State) : State :=
  if (memberMode s g r.port).isSome then replyTo r .alreadyMember .none s
  else
    let s1 := setGroup g { s.groups[g] with members := s.groups[g].members.set r.port (some m) } s
    replyTo r .ok .none (post r.port (Delivery.takeJoin g m) s1)

/-- The Group Table takes LEAVE: NOT_MEMBER for a port that is none; else the entry is removed, the posting of the leave is made, the group's lamps are
blanked if it is left without members, and the reply is OK (R52, R56). -/
def takeLeave (r : Request) (g : Group) (s : State) : State :=
  if (memberMode s g r.port).isSome then
    replyTo r .ok .none (removeMember r.port (post r.port (Delivery.takeLeave g) s) g)
  else replyTo r .notMember .none s

/-- The posting of a DISSOLVE to one port, if it was a member (R54). -/
def postDissolve (g : Group) (former : PerPort (Option Mode)) (s : State) (p : Port) : State :=
  if (former.get p).isSome then post p (Delivery.takeDissolve g) s else s

/-- The Group Table takes DISSOLVE: every entry is removed, each former member gets the posting, a group that had members is blanked, and the reply
carries how many were removed (R54, R55, R56). A choice may fall between the posting to the requester's own port and the reply (R140). -/
def takeDissolve (r : Request) (g : Group) (s : State) : State :=
  let rec0 := s.groups[g]
  let s1 := setGroup g { rec0 with members := PerPort.all none } s
  let s2 := [Port.p0, Port.p1, Port.p2].foldl (postDissolve g rec0.members) s1
  let s3 := if memberless rec0 then s2 else blank g s2
  replyTo r .ok (.removed (memberCount rec0)) (raceChoice r.port s3)

end Sys2Proof.Machine
end

