-- ==== Sys2Proof/Machine/Delivery.lean ====
section
/-! DEFINITION. The Delivery Unit's own request, GRANT (05_event_queues_and_credits.md). Posts stand in Machine/Ops.lean, compositions in
Machine/Transmit.lean. -/

namespace Sys2Proof.Machine

/-- The credit count after a GRANT of n (R91, the table of section 5.4). -/
def grantedCredits (credits n : Nat) : Nat := if n = 0 then 0 else min Config.creditCeiling (credits + n)

/-- The credit count is set or added to; the queue, the loss count and the notice set stay (R91). -/
def Delivery.takeGrant (n : Nat) (d : Delivery) : Delivery := { d with credits := grantedCredits d.credits n }

/-- The Delivery Unit takes GRANT: the credits, then the reply with the count after the GRANT. A choice may fall between the two (R91, R140); the count
in the reply is the one the GRANT left. -/
def takeGrant (r : Request) (n : Nat) (s : State) : State :=
  let s1 := updDelivery r.port (Delivery.takeGrant n) s
  replyTo r .ok (.credits (s1.delivery.get r.port).credits) (raceChoice r.port s1)

end Sys2Proof.Machine
end

