-- ==== Sys2Proof/Machine/Lamps.lean ====
section
/-! DEFINITION. The Lamp Controller's requests (06_lamps.md): MAP LAMPS and LAMPS. The lit answer stands in Machine/Flags.lean, the blanking in
Machine/Ops.lean. -/

namespace Sys2Proof.Machine

/-- Replace one lamp record. -/
def setLamp (l : Lamp) (x : LampRec) (s : State) : State := { s with lamps := s.lamps.set l.val x }

/-- One MAP LAMPS entry: the group carried, and FOLLOW of the key carried or OFF (R102). -/
def mapLamp (s : State) (e : Lamp × Option Group × Option Key) : State :=
  setLamp e.1 { group := e.2.1, mode := match e.2.2 with | some k => .follow k | none => .switched .off } s

/-- The Lamp Controller takes MAP LAMPS: its entries in list order, then the reply OK (R102). -/
def takeMapLamps (r : Request) (es : List (Lamp × Option Group × Option Key)) (s : State) : State :=
  replyTo r .ok .none (es.foldl mapLamp s)

/-- Whether a port may switch a lamp: a member of the lamp's group in either mode, or, for a lamp with no group, a session with role ADMIN (R104). -/
def lampAccess (s : State) (p : Port) (l : Lamp) : Bool :=
  match s.lamps[l].group with
  | some g => (memberMode s g p).isSome
  | none => (sessionOf s p).role == some .admin

/-- Whether a lamp follows a key. -/
def lampFollows (s : State) (l : Lamp) : Bool :=
  match s.lamps[l].mode with
  | .switched _ => false
  | .follow _ => true

/-- The check of one LAMPS entry: the failing status, or none (R104, the table of section 6.7). -/
def lampFault (s : State) (p : Port) (l : Lamp) : Option Status :=
  if !lampAccess s p l then some .lampLocked else if lampFollows s l then some .followLamp else none

/-- One LAMPS entry is applied: the mode carried; the group stays (R105). -/
def switchLamp (s : State) (e : Lamp × SwitchMode) : State := setLamp e.1 { s.lamps[e.1] with mode := .switched e.2 } s

/-- At least one lamp named in a LAMPS request holds a lit mode (R108). -/
def namesLit (es : List (Lamp × SwitchMode)) (s : State) : Bool := es.any fun e => s.lamps[e.1].mode.lit

/-- The Lamp Controller takes LAMPS: every entry is checked against the records and the membership as they stand; the first that fails refuses the whole
request; else the entries are applied in order, the reply is OK, and one lit demand is signalled when a lamp named then holds a lit mode
(R104, R105, R108). -/
def takeLamps (r : Request) (es : List (Lamp × SwitchMode)) (s : State) : State :=
  match es.findSome? fun e => lampFault s r.port e.1 with
  | some st => replyTo r st .none s
  | none =>
    let s1 := es.foldl switchLamp s
    let s2 := replyTo r .ok .none s1
    if namesLit es s1 then { s2 with scan := { s2.scan with litDemands := s2.scan.litDemands + 1 } } else s2

end Sys2Proof.Machine
end

