-- ==== Sys2Proof/Machine/Dispatcher.lean ====
section
/-! DEFINITION. The Dispatcher (04_dispatch_delivery_modes_and_snapshots.md): routing, and the two halves of a SNAPSHOT. -/

namespace Sys2Proof.Machine

/-- The post a member is owed for a transition of its group: the record in STREAM mode (R65); in LATCHED mode a changed, but for a REPEAT (R67). -/
def memberPost (t : Transition) (g : Group) (m : Mode) (d : Delivery) : Delivery :=
  match m with
  | .stream => d.takeRecord (.event t)
  | .latched => if t.kind = .repeated then d else d.takeChanged g

/-- The posts of one transition to one port. -/
def routeTo (t : Transition) (g : Group) (s : State) (p : Port) : State :=
  match memberMode s g p with
  | some m => post p (memberPost t g m) s
  | none => s

/-- One transition is routed whole: dropped when its group is none or has no members, else posted to every member (R62, R63). -/
def route (t : Transition) (s : State) : State :=
  match t.group with
  | some g => [Port.p0, Port.p1, Port.p2].foldl (routeTo t g) s
  | none => s

/-- The Dispatcher takes the oldest transition handed to it and routes it; with none waiting it waits (R62). -/
def routeNext (s : State) : State :=
  match s.disp.waiting with
  | [] => s
  | t :: rest => route t { s with disp := { s.disp with waiting := rest } }

/-- Whether a SNAPSHOT of a group is allowed: role ADMIN, or a member in either mode (R76). -/
def snapshotAllowed (s : State) (p : Port) (g : Group) : Bool :=
  (sessionOf s p).role == some .admin || (memberMode s g p).isSome

/-- The arm step, for a LATCHED member only (R77). -/
def armStep (p : Port) (g : Group) (s : State) : State :=
  if memberMode s g p = some .latched then post p (Delivery.takeArm g) s else s

/-- The Dispatcher takes SNAPSHOT: NOT_MEMBER, or the arm step and the read handed to the Key Table (R76, R77, R78). -/
def takeSnapshot (r : Request) (g : Group) (s : State) : State :=
  if snapshotAllowed s r.port g then setSnapshot r.port (some { req := r, group := g }) (armStep r.port g s)
  else replyTo r .notMember .none s

/-- The Key Table takes the read of a port's SNAPSHOT in flight, and the Dispatcher produces the reply (R78, R43); the read is made even when the
session has ended, and its reply is then discarded (R79). -/
def takeSnapshotRead (p : Port) (s : State) : State :=
  match s.disp.snapshots.get p with
  | some x => replyTo x.req .ok (readSnapshot x.group s) (setSnapshot p none s)
  | none => s

end Sys2Proof.Machine
end

