-- ==== Sys2Proof/Machine/Sessions.lean ====
section
/-! DEFINITION. The Session Manager (09_sessions_and_roles.md): its own requests, the checks and the routing to the owners, OPEN, and the events that follow
inside a step until nothing more can happen without a command. -/

namespace Sys2Proof.Machine

/-! ## The Session Manager's own requests -/

/-- At a CLOSE the Link Unit releases the places of replies not yet produced (R129, R148). -/
def Link.releaseHeld (l : Link) : Link := { l with held := 0 }

/-- CLOSE: the reply OK, then the teardown into CLOSING, as one event (R146). -/
def takeClose (r : Request) (s : State) : State :=
  updLink r.port Link.releaseHeld (teardown r.port .closing (replyTo r .ok .none s))

/-- The data of a STATUS reply (R152). An OPEN session has a role (R141); log 27. -/
def statusData (p : Port) (s : State) : ReplyData :=
  .status s.scan.state s.scan.frameNumber s.keys.transition (s.delivery.get p).credits (s.delivery.get p).queue.length (s.delivery.get p).loss
    (s.link.get p).resend.length ((sessionOf s p).role.getD .user) s.mgr.adminClaim

/-- STATUS: reads alone (R152). -/
def takeStatus (r : Request) (s : State) : State := replyTo r .ok (statusData r.port s) s

/-- The requests waiting at the Session Manager when a RESET is taken: those of the other ports were accepted before it and stay to be answered by their owners
(R153); those of its own port were accepted after it (R151; log 30). -/
def passOthers (p : Port) (x : PerPort (List Queued)) : PerPort (List Queued) :=
  let pass : Port → List Queued → List Queued := fun q ws => if q = p then ws else ws.map fun w => { w with passed := true }
  ⟨pass .p0 x.p0, pass .p1 x.p1, pass .p2 x.p2⟩

/-- RESET: the reply OK, and the reset in flight recorded, with what was accepted before it on the other ports (R153). -/
def takeReset (r : Request) (s : State) : State :=
  let s1 := replyTo r .ok .none s
  { s1 with mgr := { s1.mgr with resetInFlight := some (r.port, r.session), inbox := passOthers r.port s1.mgr.inbox } }

/-! ## Checks and routing (R150, R151) -/

/-- The scanner's completion holds its requests back: the image waits for the Key Table, and no HALT is in flight (log 8). With a HALT in flight a request is
refused at once, wherever the scanner stands (R11, R17). -/
def Scanner.completing (sc : Scanner) : Bool := sc.phase == .imageWaiting && sc.halt.isNone

/-- Whether the owner of a request takes it now. The Key Table takes no MAP KEYS while a transition waits (R62); the Dispatcher takes no further SNAPSHOT
of a port before the read of the earlier one (R81), and goes on taking those of the other ports meanwhile, as the model's choice (DESIGN CHOICE, log 28); the
scanner takes no request while a completion holds it back (log 8). -/
def ownerReady (s : State) (p : Port) : Ask → Bool
  | .close => true
  | .grant _ => true
  | .join _ _ => true
  | .leave _ => true
  | .snapshot _ => (s.disp.snapshots.get p).isNone
  | .lamps _ => true
  | .status => true
  | .mapKeys _ => s.disp.waiting.isEmpty
  | .mapLamps _ => true
  | .groupSetup _ _ _ => true
  | .dissolve _ => true
  | .scanSetup _ => !s.scan.completing
  | .scanControl _ => !s.scan.completing
  | .reset => true

/-- The owner's part of a request whose session is OPEN (the table of R150). -/
def carryOut (r : Request) (a : Ask) (s : State) : State :=
  match a with
  | .close => takeClose r s
  | .grant n => takeGrant r n s
  | .join g m => takeJoin r g m s
  | .leave g => takeLeave r g s
  | .snapshot g => takeSnapshot r g s
  | .lamps es => takeLamps r es s
  | .status => takeStatus r s
  | .mapKeys es => takeMapKeys r es s
  | .mapLamps es => takeMapLamps r es s
  | .groupSetup g delay interval => takeGroupSetup r g delay interval s
  | .dissolve g => takeDissolve r g s
  | .scanSetup su => takeScanSetup r su s
  | .scanControl op => takeScanControl r op s
  | .reset => takeReset r s

/-- An owner takes a request: it is applied only if its session is still OPEN (R150, R47, R98, R91, R76, R11, R13, R38). -/
def takeByOwner (h : Handed) (s : State) : State := if requestLive s h.req then carryOut h.req h.ask s else s

/-- A checked request is handed to its owner, which takes it at once or when it can (R151). -/
def handOn (h : Handed) (s : State) : State :=
  if ownerReady s h.req.port h.ask then takeByOwner h s else setHanded h.req.port (some h) s

/-- Check 3 of R150: a request that needs the ADMIN role, from a session without it. -/
def roleRefused (s : State) (p : Port) (a : Ask) : Bool := a.adminOnly && (sessionOf s p).role != some .admin

/-- Check 1 of R150: a reset is in flight, and the request was not accepted before its RESET (R153; log 30). -/
def resetRefused (w : Queued) (s : State) : Bool := s.mgr.resetInFlight.isSome && !w.passed

/-- The Session Manager takes a request other than OPEN: dropped when its session has ended (R151), else checked in the order of R150 and handed on. -/
def takeRequest (w : Queued) (s : State) : State :=
  let r := w.req
  if !requestLive s r then s
  else if resetRefused w s then replyTo r .resetting .none s
  else match decodeRequest r.typ r.payload with
    | .refused st => replyTo r st .none s
    | .ok a => if roleRefused s r.port a then replyTo r .notAdmin .none s else handOn { req := r, ask := a } s

/-! ## OPEN (R143, R144) -/

/-- A refused OPEN: its reply place is released and the status made pending (R144). -/
def refuseOpen (p : Port) (st : Status) (s : State) : State :=
  updLink p (fun l => { l with held := l.held - 1, openRefused := some st }) s

/-- The identity of a port's next session: new (R141; log 14). -/
def nextIdentity (x : Session) : Nat :=
  match x.identity with
  | some n => n + 1
  | none => 0

/-- Step 5 of R143: the session opens, ADMIN takes the claim, the RTO is set, and the reply is produced for the new session. -/
def beginSession (p : Port) (seq : Byte) (o : OpenAsk) (s : State) : State :=
  let n := nextIdentity (sessionOf s p)
  let s1 := setSession p { state := .open, role := some o.role, tag := some o.tag, identity := some n } s
  let s2 := { s1 with mgr := { s1.mgr with adminClaim := if o.role = .admin then some p else s1.mgr.adminClaim } }
  produce p { session := n, typ := typeOpen, seq, status := .ok, data := .identity } (updLink p (fun l => { l with rto := o.rto * 10 }) s2)

/-- Step 1 of R143: an OPEN session is torn down; a CLOSING one becomes CLOSED. -/
def endForOpen (p : Port) (s : State) : State :=
  if isOpen s p then teardown p .closed s else setSession p { sessionOf s p with state := .closed } s

/-- The reset in flight is on this port. -/
def resetOn (s : State) (p : Port) : Bool := s.mgr.resetInFlight.any fun x => x.1 == p

/-- The reset in flight is on another port (step 2 of R143). -/
def resetElsewhere (s : State) (p : Port) : Bool := s.mgr.resetInFlight.any fun x => x.1 != p

/-- The admin claim names another port (step 4 of R143). -/
def claimElsewhere (s : State) (p : Port) : Bool := s.mgr.adminClaim.any fun q => q != p

/-- The Session Manager takes an accepted OPEN, in the five steps of R143. -/
def takeOpen (p : Port) (seq : Byte) (payload : List Byte) (s : State) : State :=
  if isOpen s p && resetOn s p then fullReset s
  else
    let s1 := endForOpen p s
    if resetElsewhere s1 p then refuseOpen p .resetting s1
    else match decodeOpen payload with
      | .refused st => refuseOpen p st s1
      | .ok o => if o.role == .admin && claimElsewhere s1 p then refuseOpen p .adminHeld s1 else beginSession p seq o s1

/-! ## What follows inside a step

The table gives a row to each event that comes from outside or waits for its own moment. What one block hands another without such an event happens inside
the step that makes it possible (log 7). -/

/-- The Matrix Scanner's next stage after a scan frame's completion, if it can be taken: the Key Table takes the image, then the halt, each only when no
transition waits (R62, R24, R42); the HALT in flight ends when the Dispatcher has routed every transition (R16). -/
def scannerEvent (s : State) : Option State :=
  if s.disp.waiting.isEmpty then
    match s.scan.phase with
    | .idle => none
    | .slot _ => none
    | .frameEnd => none
    | .imageWaiting => some (afterImage (takeImage s))
    | .haltWaiting =>
      let s1 := takeHalt s
      some { s1 with scan := { s1.scan with phase := .haltRouting } }
    | .haltRouting => some (endHalt s)
  else none

/-- The request handed to a port's owner that the owner can take now. -/
def readyRequest (s : State) (p : Port) : Option Handed := (s.mgr.handed.get p).filter fun h => ownerReady s p h.ask

/-- An owner takes the request handed to it: the first port, in the order P0, P1, P2, whose owner can (log 7). -/
def ownerEvent (s : State) : Option State :=
  [Port.p0, Port.p1, Port.p2].findSome? fun p => (readyRequest s p).map fun h => takeByOwner h (setHanded p none s)

/-- The oldest request of a port that the Session Manager can take: none while an owner has not taken the port's previous one (R151). -/
def nextRequest (s : State) (p : Port) : Option (Queued × List Queued) :=
  match s.mgr.handed.get p, s.mgr.inbox.get p with
  | none, r :: rest => some (r, rest)
  | _, _ => none

/-- The Session Manager takes a request: the first port, in the order P0, P1, P2, that has one it can take (log 7). -/
def managerEvent (s : State) : Option State :=
  [Port.p0, Port.p1, Port.p2].findSome? fun p => (nextRequest s p).map fun x => takeRequest x.1 (setInbox p x.2 s)

/-- A request is taken: by its owner if one has been handed on and can be taken, else by the Session Manager (log 7). -/
def requestEvent (s : State) : Option State := (ownerEvent s).or (managerEvent s)

/-- The next event that follows without a command, if any. When the scanner's next stage and a request can both be taken, whether it waits for its owner or at
the Session Manager, either may be first: the free value decides (R41, R61, R62, R109; log 6). -/
def internal (s : State) : Option State :=
  match scannerEvent s, requestEvent s with
  | some a, some b => some (if Config.race s.races then { a with races := a.races + 1 } else { b with races := b.races + 1 })
  | some a, none => some a
  | none, some b => some b
  | none, none => none

/-- Stages that a scan frame's completion still has to go through. -/
def Phase.stagesLeft : Phase → Nat
  | .idle => 0
  | .slot _ => 0
  | .frameEnd => 0
  | .imageWaiting => 3
  | .haltWaiting => 2
  | .haltRouting => 1

/-- Events of one port that can follow without a command, at most. -/
def portMeasure (s : State) (p : Port) : Nat :=
  2 * (s.mgr.inbox.get p).length + (if (s.mgr.handed.get p).isSome then 1 else 0)

/-- A bound on how many events can follow without a command. -/
def internalMeasure (s : State) : Nat :=
  portMeasure s .p0 + portMeasure s .p1 + portMeasure s .p2 + s.scan.phase.stagesLeft

/-- The events that follow, one after another, each IDLE transmitter making its choice after each of them (R131; log 19). -/
def settle : Nat → State → State
  | 0, s => s
  | n + 1, s =>
    match internal s with
    | some s' => settle n (serveAll s')
    | none => s

/-- The end of a step: every IDLE transmitter makes its choice, and the part goes on until nothing more follows without a command (log 7). -/
def finish (s : State) : State :=
  let s1 := serveAll s
  settle (internalMeasure s1) s1

/-- The end of a step that has handed a request to the Session Manager: a choice of the port's IDLE transmitter may fall before the request is taken or
after (R131, R140). -/
def finishRequest (p : Port) (s : State) : State :=
  let s1 := raceChoice p s
  serveAll (settle (internalMeasure s1) s1)

end Sys2Proof.Machine
end

