-- ==== Sys2Proof/Machine/Link.lean ====
section
/-! DEFINITION. The Link Unit's receive side and timers (07_link_framing_and_reliable_delivery.md): the taking of a good frame, the framer, the
retransmit timer, the ack holdoff and the end of a frame on the line. -/

namespace Sys2Proof.Machine

/-! ## The ACK byte (R115) -/

/-- The ACK byte is read: the frames up to the one it names leave the resend list; the retry count returns to 0; a burst skips them and ends when the list
is empty; the retransmit timer stops, restarts or is left, as R115 and R125 say. A value that names no frame changes nothing. -/
def Link.readAck (a : Byte) (l : Link) : Link :=
  let n := ackedCount l.resend a
  if n = 0 then l
  else
    let rest := l.resend.drop n
    { l with
      resend := rest
      retry := 0
      burst := if rest.isEmpty then none else l.burst.map (· - n)
      retransmit :=
        if rest.isEmpty then l.retransmit.stop
        else if l.burst.isNone then l.retransmit.start l.rto
        else l.retransmit }

/-- The frames an ACK byte removes. -/
def Link.acked (a : Byte) (l : Link) : List SentFrame := l.resend.take (ackedCount l.resend a)

/-- The ACK byte removes the RESET reply on the port of the reset in flight: the full reset follows (R115, R154). -/
def ackEndsReset (p : Port) (a : Byte) (s : State) : Bool := resetOn s p && ((s.link.get p).acked a).any SentFrame.isResetReply

/-- The ACK byte removes the CLOSE reply of a CLOSING session: CLOSING ends (R146). -/
def ackEndsClosing (p : Port) (a : Byte) (s : State) : Bool :=
  (sessionOf s p).state == .closing && ((s.link.get p).acked a).any SentFrame.isCloseReply

/-- A CLOSING session becomes CLOSED (R146). -/
def endClosing (p : Port) (s : State) : State := setSession p { sessionOf s p with state := .closed } s

/-- The Link Unit reads the ACK byte, and tells the Session Manager of a CLOSE reply that left the list once the removal is complete (R115; log 26). -/
def takeAckByte (p : Port) (a : Byte) (s : State) : State :=
  let s1 := updLink p (Link.readAck a) s
  if ackEndsClosing p a s then endClosing p s1 else s1

/-! ## OPEN at the Link Unit (R117) -/

/-- A duplicate OPEN: session OPEN, the same open tag, open mark present (R117). -/
def duplicateOpen (s : State) (p : Port) (payload : List Byte) : Bool :=
  isOpen s p && (s.link.get p).openMark &&
    match openTag? payload with
    | some t => (sessionOf s p).tag == some t
    | none => false

/-- The Link Unit's reset at the acceptance of an OPEN, and what it then sets (R117, R136). -/
def Link.acceptOpen (seq : Byte) (l : Link) : Link :=
  Link.oweAck
    { l with
      replies := [], held := 1, resend := [], retransmit := l.retransmit.stop, retry := 0, burst := none, nextSeq := 0
      noSession := false, openRefused := none, lastAccepted := seq, openMark := true, replyRun := 0 }

/-- The Link Unit takes an OPEN (R117). -/
def takeOpenFrame (p : Port) (f : RxFrame) (s : State) : State :=
  if duplicateOpen s p f.payload then updLink p Link.oweAck s
  else takeOpen p f.seq f.payload (updLink p (Link.acceptOpen f.seq) s)

/-! ## Requests at the Link Unit (R116, R118) -/

/-- The acceptance of a request: its SEQ is the last accepted, the open mark goes, a place is held for its reply, an acknowledgement is owed (R118). -/
def Link.accept (seq : Byte) (l : Link) : Link := Link.oweAck { l with lastAccepted := seq, openMark := false, held := l.held + 1 }

/-- The request of a frame accepted on a port, under the port's present session (R118, R141; log 27). -/
def requestOf (s : State) (p : Port) (f : RxFrame) : Request :=
  { port := p, session := (sessionOf s p).identity.getD 0, typ := f.typ, seq := f.seq, payload := f.payload }

/-- An accepted request passes to the Session Manager, behind the port's earlier ones (R118, R151). -/
def acceptRequest (p : Port) (f : RxFrame) (s : State) : State :=
  setInbox p (s.mgr.inbox.get p ++ [{ req := requestOf s p f, passed := false }]) (updLink p (Link.accept f.seq) s)

/-- What the Link Unit judges of a SEQ on a port (R118). -/
def verdict (s : State) (p : Port) (seq : Byte) : Verdict := judge (s.link.get p).lastAccepted (s.link.get p).places seq

/-- A request other than OPEN, by session state (R116) and, in OPEN, by its SEQ (R118). -/
def takeRequestFrame (p : Port) (f : RxFrame) (s : State) : State :=
  match (sessionOf s p).state with
  | .closed => serve p (updLink p (fun l => { l with noSession := true }) s)
  | .closing => serve p s
  | .open =>
    match verdict s p f.seq with
    | .accepted => finishRequest p (acceptRequest p f s)
    | .noPlace => serve p s
    | .duplicate => serve p (updLink p Link.oweAck s)
    | .outOfWindow => serve p (updLink p Link.oweAck s)

/-- The Link Unit takes a good frame: the ACK byte first, which may end in the full reset before the rest of the frame is taken (R154); then by TYPE
(R116). -/
def takeGoodFrame (p : Port) (f : RxFrame) (s : State) : State :=
  if ackEndsReset p f.ack s then fullReset s
  else
    let s1 := takeAckByte p f.ack s
    if f.typ = typeAck then serve p s1
    else if f.typ = typeOpen then finish (takeOpenFrame p f s1)
    else takeRequestFrame p f s1

/-! ## The framer (R112 to R114) -/

/-- A byte taken in HUNT: SYNC begins a frame and starts the gap timer; any other is discarded (R112). -/
def Framer.hunt (b : Byte) (fr : Framer) : Framer :=
  if b = Config.syncByte then { fr with state := .collect, buffer := [], gapRunning := true }
  else { fr with state := .hunt, buffer := [], gapRunning := false }

/-- The bytes collected so far are discarded and the framer hunts (R112, R114). -/
def Framer.abandon (fr : Framer) : Framer := { fr with state := .hunt, buffer := [], gapRunning := false }

/-- A byte stored in COLLECT. With the last CRC byte the gap timer stops and the frame is checked: a good one is delivered and the framer hunts; one whose
CRC does not match stays in the buffer to be taken again (R112, R113; log 15). -/
def Framer.store (b : Byte) (fr : Framer) : Framer × Option RxFrame :=
  let buffer := fr.buffer ++ [b]
  if bufferFull buffer then
    match goodFrame? buffer with
    | some f => (fr.abandon, some f)
    | none => ({ fr with buffer, gapRunning := false }, none)
  else ({ fr with buffer, gapRunning := true }, none)

/-- The LEN byte lies in its range (R110, R112). -/
def lenInRange (b : Byte) : Bool := decide (Config.lenMin ≤ b.toNat ∧ b.toNat ≤ Config.lenMax)

/-- The framer takes one byte (R112). A byte with a framing fault is discarded and ends a frame being collected; a LEN out of range is taken in HUNT. -/
def Framer.take (x : RxByte) (fr : Framer) : Framer × Option RxFrame :=
  match fr.state with
  | .hunt => if x.fault then (fr, none) else (fr.hunt x.value, none)
  | .collect =>
    if x.fault then (fr.abandon, none)
    else if fr.buffer.isEmpty && !lenInRange x.value then (fr.hunt x.value, none)
    else fr.store x.value

/-- Replace a port's framer. -/
def setFramer (p : Port) (fr : Framer) (s : State) : State := updLink p (fun l => { l with framer := fr }) s

/-- A port's framer. -/
def framerOf (s : State) (p : Port) : Framer := (s.link.get p).framer

/-- The framer takes one byte and delivers the good frame it completes, if any (R112, R113). -/
def feed (p : Port) (x : RxByte) (s : State) : State :=
  let out := (framerOf s p).take x
  match out.2 with
  | some f => takeGoodFrame p f (setFramer p out.1 s)
  | none => setFramer p out.1 s

/-- A byte arrives on the line: taken by the framer, or, while a frame is to be taken again, waiting behind it (R112, R113). -/
def takeArrivingByte (p : Port) (x : RxByte) (s : State) : State :=
  if (framerOf s p).holdsBadFrame then setFramer p { framerOf s p with backlog := (framerOf s p).backlog ++ [x] } s
  else feed p x s

/-- The waiting bytes are taken in order, until none is left or another whole frame with a wrong CRC stands in the buffer (R113). -/
def drain (p : Port) : Nat → State → State
  | 0, s => s
  | n + 1, s =>
    if (framerOf s p).holdsBadFrame then s
    else match (framerOf s p).backlog with
      | [] => s
      | x :: rest => drain p n (feed p x (setFramer p { framerOf s p with backlog := rest } s))

/-- A frame with a wrong CRC is discarded: the framer hunts from the byte after its SYNC, through the stored bytes and then the bytes that arrived
meanwhile (R113). -/
def takeBadFrame (p : Port) (s : State) : State :=
  let fr := framerOf s p
  if fr.holdsBadFrame then
    let bytes := fr.buffer.map (fun b => { value := b, fault := false : RxByte }) ++ fr.backlog
    drain p bytes.length (setFramer p { fr.abandon with backlog := bytes } s)
  else s

/-- The gap timer expires in COLLECT: the frame is abandoned, its bytes not taken again (R114). -/
def takeGapExpiry (p : Port) (s : State) : State :=
  if (framerOf s p).gapRunning then setFramer p (framerOf s p).abandon s else s

/-! ## Timers and the end of a frame -/

/-- The Link Unit's part at the retry limit (R126, R136). -/
def Link.giveUp (l : Link) : Link :=
  { l with
    replies := [], held := 0, resend := [], retransmit := l.retransmit.stop, retry := 0, burst := none, ackOwed := false
    holdoff := l.holdoff.stop, replyRun := 0 }

/-- The Session Manager is told that the retry limit has been reached: the session is lost, CLOSING ends, or the full reset follows (R126, R147, R146,
R154). -/
def retryLimitReached (p : Port) (s : State) : State :=
  if resetOn s p then fullReset s
  else match (sessionOf s p).state with
    | .closed => s
    | .open => teardown p .closed s
    | .closing => endClosing p s

/-- The retransmit timer expires: the retry count goes up, and a burst of the whole resend list begins or, at 4, the retry limit is reached (R123). -/
def takeRetransmitExpiry (p : Port) (s : State) : State :=
  let l := s.link.get p
  if l.retransmit.running then
    if Config.retryLimit ≤ l.retry + 1 then finish (retryLimitReached p (updLink p Link.giveUp s))
    else serve p (updLink p (fun l => { l with retransmit := l.retransmit.stop, retry := l.retry + 1, burst := some 0 }) s)
  else s

/-- The ack holdoff expires: an ACK frame is due while the flag is set (R127). -/
def takeHoldoffExpiry (p : Port) (s : State) : State :=
  if (s.link.get p).holdoff.running then serve p (updLink p (fun l => { l with holdoff := l.holdoff.stop }) s) else s

/-- The last byte of the frame on the line has been sent: the line is free, and a burst whose frames have all been sent ends and restarts the retransmit
timer (R131, R124, R133). -/
def Link.endFrame (l : Link) : Link :=
  match l.burst with
  | some i =>
    if l.resend.length ≤ i then { l with line := .idle, burst := none, retransmit := l.retransmit.start l.rto } else { l with line := .idle }
  | none => { l with line := .idle }

/-- The end of a frame on the line, and the choice that follows (R131). -/
def takeFrameEnd (p : Port) (s : State) : State :=
  if lineIdle p s then s else serve p (updLink p Link.endFrame s)

end Sys2Proof.Machine
end

