-- ==== Sys2Proof/Machine/Requests.lean ====
section
/-! DEFINITION. The meanings of the commands that are frames from a controller. Each is the arrival of a good frame of its TYPE (log 1): the Link Unit takes
it (R115 to R118), the Session Manager checks it (R150) and the owner carries it out, as Machine/Link.lean and Machine/Sessions.lean compose. -/

namespace Sys2Proof.Machine

/-- The outcome of a meaning: every command of the part ends in a next state. -/
abbrev Result := Host.Outcome State Fault Refusal

/-- OPEN (R117, R143): a good frame of TYPE OPEN is taken. -/
def execOpenSession (p : Port) (seq ack : Byte) (payload : List Byte) (s : State) : Result :=
  .next (takeGoodFrame p ⟨typeOpen, seq, ack, payload⟩ s)

/-- CLOSE (R146, R118). -/
def execClose (p : Port) (seq ack : Byte) (payload : List Byte) (s : State) : Result :=
  .next (takeGoodFrame p ⟨typeClose, seq, ack, payload⟩ s)

/-- GRANT (R91, R118). -/
def execGrant (p : Port) (seq ack : Byte) (payload : List Byte) (s : State) : Result :=
  .next (takeGoodFrame p ⟨typeGrant, seq, ack, payload⟩ s)

/-- JOIN (R49, R50, R118). -/
def execJoin (p : Port) (seq ack : Byte) (payload : List Byte) (s : State) : Result :=
  .next (takeGoodFrame p ⟨typeJoin, seq, ack, payload⟩ s)

/-- LEAVE (R52, R118). -/
def execLeave (p : Port) (seq ack : Byte) (payload : List Byte) (s : State) : Result :=
  .next (takeGoodFrame p ⟨typeLeave, seq, ack, payload⟩ s)

/-- SNAPSHOT (R76, R77, R118). -/
def execSnapshot (p : Port) (seq ack : Byte) (payload : List Byte) (s : State) : Result :=
  .next (takeGoodFrame p ⟨typeSnapshot, seq, ack, payload⟩ s)

/-- LAMPS (R104, R105, R108, R118). -/
def execLamps (p : Port) (seq ack : Byte) (payload : List Byte) (s : State) : Result :=
  .next (takeGoodFrame p ⟨typeLamps, seq, ack, payload⟩ s)

/-- STATUS (R152, R118). -/
def execStatus (p : Port) (seq ack : Byte) (payload : List Byte) (s : State) : Result :=
  .next (takeGoodFrame p ⟨typeStatus, seq, ack, payload⟩ s)

/-- MAP_KEYS (R38 to R41, R118). -/
def execMapKeys (p : Port) (seq ack : Byte) (payload : List Byte) (s : State) : Result :=
  .next (takeGoodFrame p ⟨typeMapKeys, seq, ack, payload⟩ s)

/-- MAP_LAMPS (R102, R118). -/
def execMapLamps (p : Port) (seq ack : Byte) (payload : List Byte) (s : State) : Result :=
  .next (takeGoodFrame p ⟨typeMapLamps, seq, ack, payload⟩ s)

/-- GROUP_SETUP (R48, R118). -/
def execGroupSetup (p : Port) (seq ack : Byte) (payload : List Byte) (s : State) : Result :=
  .next (takeGoodFrame p ⟨typeGroupSetup, seq, ack, payload⟩ s)

/-- DISSOLVE (R54, R55, R118). -/
def execDissolve (p : Port) (seq ack : Byte) (payload : List Byte) (s : State) : Result :=
  .next (takeGoodFrame p ⟨typeDissolve, seq, ack, payload⟩ s)

/-- SCAN_SETUP (R11, R118). -/
def execScanSetup (p : Port) (seq ack : Byte) (payload : List Byte) (s : State) : Result :=
  .next (takeGoodFrame p ⟨typeScanSetup, seq, ack, payload⟩ s)

/-- SCAN_CONTROL_START (R13, R118): operation byte 0. -/
def execScanControlStart (p : Port) (seq ack : Byte) (extra : List Byte) (s : State) : Result :=
  .next (takeGoodFrame p ⟨typeScanControl, seq, ack, 0 :: extra⟩ s)

/-- SCAN_CONTROL_HALT (R15, R118): operation byte 1. -/
def execScanControlHalt (p : Port) (seq ack : Byte) (extra : List Byte) (s : State) : Result :=
  .next (takeGoodFrame p ⟨typeScanControl, seq, ack, 1 :: extra⟩ s)

/-- SCAN_CONTROL_WATCH (R14, R118): operation byte 2. -/
def execScanControlWatch (p : Port) (seq ack : Byte) (extra : List Byte) (s : State) : Result :=
  .next (takeGoodFrame p ⟨typeScanControl, seq, ack, 2 :: extra⟩ s)

/-- RESET (R153, R118). -/
def execReset (p : Port) (seq ack : Byte) (payload : List Byte) (s : State) : Result :=
  .next (takeGoodFrame p ⟨typeReset, seq, ack, payload⟩ s)

/-- ACK (R115, R116): the ACK byte alone. -/
def execAck (p : Port) (seq ack : Byte) (payload : List Byte) (s : State) : Result :=
  .next (takeGoodFrame p ⟨typeAck, seq, ack, payload⟩ s)

/-- UNKNOWN_TYPE_REQUEST (R161, R118): a request of this TYPE. -/
def execUnknownTypeRequest (p : Port) (typ seq ack : Byte) (payload : List Byte) (s : State) : Result :=
  .next (takeGoodFrame p ⟨typ, seq, ack, payload⟩ s)

end Sys2Proof.Machine
end

