-- ==== Sys2Proof/Machine/Events.lean ====
section
/-! DEFINITION. The meanings of the commands that are events: pins, bytes and frames on the lines, timers, and the moments that the table gives a row of their
own. An event that cannot occur in the present state changes nothing (log 4). -/

namespace Sys2Proof.Machine

/-- The straps stand at this level, and every block takes its reset values (R155, R130; log 13). -/
def resetWithStraps (straps : BitVec 2) (s : State) : State := fullReset { s with pins := { s.pins with straps } }

/-- NRST (R155). -/
def execNrst (straps : BitVec 2) (s : State) : Result := .next (resetWithStraps straps s)

/-- POWER_UP (R155). -/
def execPowerUp (straps : BitVec 2) (s : State) : Result := .next (resetWithStraps straps s)

/-- SNAPSHOT_READ (R78). -/
def execSnapshotRead (p : Port) (s : State) : Result := .next (finish (takeSnapshotRead p s))

/-- BAD_CRC_FRAME (R113). -/
def execBadCrcFrame (p : Port) (s : State) : Result := .next (takeBadFrame p s)

/-- GAP_TIMER_EXPIRY (R114). -/
def execGapTimerExpiry (p : Port) (s : State) : Result := .next (takeGapExpiry p s)

/-- ARRIVING_BYTE (R112). -/
def execArrivingByte (p : Port) (b : Byte) (framingFault : Bool) (s : State) : Result :=
  .next (takeArrivingByte p { value := b, fault := framingFault } s)

/-- COLUMN_SLOT_END (R1 to R3): the end of the slot in progress. -/
def execColumnSlotEnd (sense : BitVec 8) (s : State) : Result :=
  match s.scan.phase with
  | .slot c => .next (endSlot sense c s)
  | .idle => .next s
  | .frameEnd => .next s
  | .imageWaiting => .next s
  | .haltWaiting => .next s
  | .haltRouting => .next s

/-- SCAN_FRAME_COMPLETION (R4): the completion that is due after slot D15, with the stages that can follow at once (R5, R6, R16, R24). -/
def execScanFrameCompletion (s : State) : Result :=
  match s.scan.phase with
  | .frameEnd => .next (finish (completeFrame s))
  | .idle => .next s
  | .slot _ => .next s
  | .imageWaiting => .next s
  | .haltWaiting => .next s
  | .haltRouting => .next s

/-- WATCH_SAMPLE (R8): the watch period timer expires in WATCH. -/
def execWatchSample (sense : BitVec 8) (s : State) : Result :=
  match s.scan.state with
  | .watch => .next (finish (takeWatchSample sense s))
  | .halted => .next s
  | .active => .next s

/-- LIT_DEMAND (R9, R7): the scanner takes one lit demand that was signalled (log 10). -/
def execLitDemand (s : State) : Result :=
  match s.scan.litDemands with
  | 0 => .next s
  | n + 1 => .next (finish (takeLitDemand { s with scan := { s.scan with litDemands := n } }))

/-- ROUTE_TRANSITION (R62), with what waited for the Dispatcher (R62, R16). -/
def execRouteTransition (s : State) : Result := .next (finish (routeNext s))

/-- RETRANSMIT_TIMER_EXPIRY (R123). -/
def execRetransmitTimerExpiry (p : Port) (s : State) : Result := .next (takeRetransmitExpiry p s)

/-- ACK_HOLDOFF_EXPIRY (R127). -/
def execAckHoldoffExpiry (p : Port) (s : State) : Result := .next (takeHoldoffExpiry p s)

/-- FRAME_TRANSMIT_END (R131). -/
def execFrameTransmitEnd (p : Port) (s : State) : Result := .next (takeFrameEnd p s)

end Sys2Proof.Machine
end

