-- ==== Sys2Proof/Machine/Dispatch.lean ====
section
/-! DEFINITION. What each command does: one arm per constructor of Instr. -/

namespace Sys2Proof.Machine

def exec (i : Instr) (s : State) : Host.Outcome State Fault Refusal :=
  match i with
  | .nrst straps => Sys2Proof.Machine.execNrst straps s
  | .powerUp straps => Sys2Proof.Machine.execPowerUp straps s
  | .openSession p seq a payload => Sys2Proof.Machine.execOpenSession p seq a payload s
  | .close p seq a payload => Sys2Proof.Machine.execClose p seq a payload s
  | .grant p seq a payload => Sys2Proof.Machine.execGrant p seq a payload s
  | .join p seq a payload => Sys2Proof.Machine.execJoin p seq a payload s
  | .leave p seq a payload => Sys2Proof.Machine.execLeave p seq a payload s
  | .snapshot p seq a payload => Sys2Proof.Machine.execSnapshot p seq a payload s
  | .snapshotRead p => Sys2Proof.Machine.execSnapshotRead p s
  | .lamps p seq a payload => Sys2Proof.Machine.execLamps p seq a payload s
  | .status p seq a payload => Sys2Proof.Machine.execStatus p seq a payload s
  | .mapKeys p seq a payload => Sys2Proof.Machine.execMapKeys p seq a payload s
  | .mapLamps p seq a payload => Sys2Proof.Machine.execMapLamps p seq a payload s
  | .groupSetup p seq a payload => Sys2Proof.Machine.execGroupSetup p seq a payload s
  | .dissolve p seq a payload => Sys2Proof.Machine.execDissolve p seq a payload s
  | .scanSetup p seq a payload => Sys2Proof.Machine.execScanSetup p seq a payload s
  | .scanControlStart p seq a extra => Sys2Proof.Machine.execScanControlStart p seq a extra s
  | .scanControlHalt p seq a extra => Sys2Proof.Machine.execScanControlHalt p seq a extra s
  | .scanControlWatch p seq a extra => Sys2Proof.Machine.execScanControlWatch p seq a extra s
  | .reset p seq a payload => Sys2Proof.Machine.execReset p seq a payload s
  | .unknownTypeRequest p typ seq a payload => Sys2Proof.Machine.execUnknownTypeRequest p typ seq a payload s
  | .ack p seq a payload => Sys2Proof.Machine.execAck p seq a payload s
  | .badCrcFrame p => Sys2Proof.Machine.execBadCrcFrame p s
  | .gapTimerExpiry p => Sys2Proof.Machine.execGapTimerExpiry p s
  | .scanFrameCompletion => Sys2Proof.Machine.execScanFrameCompletion s
  | .watchSample sense => Sys2Proof.Machine.execWatchSample sense s
  | .litDemand => Sys2Proof.Machine.execLitDemand s
  | .routeTransition => Sys2Proof.Machine.execRouteTransition s
  | .retransmitTimerExpiry p => Sys2Proof.Machine.execRetransmitTimerExpiry p s
  | .ackHoldoffExpiry p => Sys2Proof.Machine.execAckHoldoffExpiry p s
  | .frameTransmitEnd p => Sys2Proof.Machine.execFrameTransmitEnd p s
  | .arrivingByte p b framingFault => Sys2Proof.Machine.execArrivingByte p b framingFault s
  | .columnSlotEnd sense => Sys2Proof.Machine.execColumnSlotEnd sense s

end Sys2Proof.Machine
end

