-- ==== Sys2Proof/Safety.lean ====
section
/-! DEFINITION. What the statements speak of: the conditions that every step keeps, and the words for a request that is accepted, answered and served. -/

namespace Sys2Proof.Machine

/-! ## Ranges (the tables at the heads of 01, 02, 03, 05 and 07) -/

/-- A key record within section 2.1's ranges. -/
def KeyRec.inRange (k : KeyRec) : Prop := k.count ≤ 15 ∧ k.countdown ≤ 255 ∧ k.stuckCount ≤ Config.countCeiling

/-- A group record within section 3.1's ranges. -/
def GroupRec.inRange (g : GroupRec) : Prop := g.delay ≤ 255 ∧ 1 ≤ g.interval ∧ g.interval ≤ 255

/-- A Delivery Unit within chapter 5's ranges; the loss count is non-zero only while the queue is full (R83). -/
def Delivery.inRange (d : Delivery) : Prop :=
  d.queue.length ≤ Config.queueCapacity ∧ d.loss ≤ Config.lossCeiling ∧ d.credits ≤ Config.creditCeiling ∧
    (d.loss ≠ 0 → d.queue.length = Config.queueCapacity)

/-- A Link Unit within chapter 7's ranges. -/
def Link.inRange (l : Link) : Prop :=
  l.places ≤ Config.replyPlaces ∧ l.resend.length ≤ Config.resendCapacity ∧ l.retry < Config.retryLimit ∧ l.replyRun ≤ Config.replyRun ∧
    10 ≤ l.rto ∧ l.rto ≤ 2550

/-- Every count, list and setting lies in the range the manual gives it. -/
def Ranges (s : State) : Prop :=
  s.scan.setup.inRange = true ∧ s.scan.idleCount ≤ Config.countCeiling ∧
    (∀ k : Key, s.keys.recs[k].inRange) ∧
    (∀ g : Group, s.groups[g].inRange) ∧
    s.disp.waiting.length ≤ 128 ∧
    (∀ p : Port, (s.delivery.get p).inRange ∧ (s.link.get p).inRange) ∧
    ∀ (p : Port) (h : Handed), s.mgr.handed.get p = some h → h.ask.inRange = true

/-! ## The panel (R1, R6 to R10, R14 to R17) -/

/-- The drive lines and lamp lines that a place in the scan frame allows: in a driven slot its own drive line alone; in every other place none, and no lamp
line (R1, R2, R7). -/
def linesAllowed (sc : Scanner) : Prop :=
  match sc.phase with
  | .slot c => if sc.setup.columnMask.getLsbD c.val then sc.driveLines = oneDriveLine c else sc.driveLines = 0 ∧ sc.lampLines = 0
  | .idle => sc.driveLines = 0 ∧ sc.lampLines = 0
  | .frameEnd => sc.driveLines = 0 ∧ sc.lampLines = 0
  | .imageWaiting => sc.driveLines = 0 ∧ sc.lampLines = 0
  | .haltWaiting => sc.driveLines = 0 ∧ sc.lampLines = 0
  | .haltRouting => sc.driveLines = 0 ∧ sc.lampLines = 0

/-- A scan frame runs in ACTIVE alone; outside ACTIVE every key is UP; a HALT is in flight in ACTIVE alone; the watch period timer runs in WATCH alone; the
lines are those of the place in the scan frame; and a lamp that is lit-capable in WATCH has a lit demand waiting. -/
def PanelSound (s : State) : Prop :=
  (s.scan.state = .active ↔ s.scan.phase ≠ .idle) ∧
    (s.scan.state ≠ .active → allUp s = true) ∧
    (s.scan.phase = .haltRouting → allUp s = true) ∧
    ((s.scan.phase = .haltWaiting ∨ s.scan.phase = .haltRouting) → s.scan.halt.isSome = true) ∧
    (s.scan.halt.isSome = true → s.scan.state = .active) ∧
    (s.scan.watchTimer.running = true ↔ s.scan.state = .watch) ∧
    linesAllowed s.scan ∧
    (s.scan.state = .watch → anyLamp s = true → 0 < s.scan.litDemands)

/-! ## Sessions (R141, R142, R145, R153) -/

/-- The requests that can wait for their owner (R62, R81; log 8). -/
def Ask.canWait : Ask → Bool
  | .close => false
  | .grant _ => false
  | .join _ _ => false
  | .leave _ => false
  | .snapshot _ => true
  | .lamps _ => false
  | .status => false
  | .mapKeys _ => true
  | .mapLamps _ => false
  | .groupSetup _ _ _ => false
  | .dissolve _ => false
  | .scanSetup _ => true
  | .scanControl _ => true
  | .reset => false

/-- Role and open tag are present exactly in OPEN, with an identity; the admin claim names a port exactly when its session is OPEN with role ADMIN; the reset
in flight is the claim holder's; requests stand under their own port, only those that can wait do, and only a reset in flight on another port lets one pass. -/
def SessionsSound (s : State) : Prop :=
  (∀ p : Port,
    ((sessionOf s p).role.isSome = isOpen s p) ∧
    ((sessionOf s p).tag.isSome = isOpen s p) ∧
    (isOpen s p = true → (sessionOf s p).identity.isSome = true) ∧
    (s.mgr.adminClaim = some p ↔ isOpen s p = true ∧ (sessionOf s p).role = some .admin) ∧
    (∀ h : Handed, s.mgr.handed.get p = some h → h.req.port = p ∧ h.ask.canWait = true) ∧
    (∀ w ∈ s.mgr.inbox.get p,
      w.req.port = p ∧ (w.passed = true → ∃ (q : Port) (n : Nat), q ≠ p ∧ s.mgr.resetInFlight = some (q, n)))) ∧
  ∀ (p : Port) (n : Nat), s.mgr.resetInFlight = some (p, n) → s.mgr.adminClaim = some p ∧ (sessionOf s p).identity = some n

/-! ## Membership, notice sets and lamps (R56, R57, R70, R71, R94) -/

/-- A member's session is OPEN and the group is not in its dissolved set; armed and changed groups are those of LATCHED memberships and no group is both; a
port without an OPEN session has an empty Delivery Unit; a scan state entry stands at an ADMIN port alone; a lamp whose group has no members is OFF or
FOLLOW. -/
def MembersSound (s : State) : Prop :=
  (∀ (p : Port) (g : Group), (memberMode s g p).isSome = true → isOpen s p = true ∧ inSet (s.delivery.get p).dissolved g = false) ∧
  (∀ (p : Port) (g : Group), inSet (s.delivery.get p).armed g = true ∨ inSet (s.delivery.get p).changed g = true →
    memberMode s g p = some .latched) ∧
  (∀ (p : Port) (g : Group), ¬(inSet (s.delivery.get p).armed g = true ∧ inSet (s.delivery.get p).changed g = true)) ∧
  (∀ p : Port, isOpen s p = false → s.delivery.get p = Delivery.empty) ∧
  (∀ p : Port, (s.delivery.get p).scanEntry.isSome = true → (sessionOf s p).role = some .admin) ∧
  ∀ (l : Lamp) (g : Group), s.lamps[l].group = some g → memberless s.groups[g] = true → s.lamps[l].mode.lit = false

/-! ## Link Units (R110, R112 to R114, R121 to R125, R127, R138) -/

/-- The framer hunts with an empty buffer, or collects a frame whose LEN is in range; the gap timer runs while a frame is being collected; bytes wait only
behind a frame to be taken again. -/
def Framer.sound (f : Framer) : Prop :=
  (f.state = .hunt → f.buffer = []) ∧
    f.gapRunning = (f.state == .collect && !f.holdsBadFrame) ∧
    (f.holdsBadFrame = false → f.backlog = []) ∧
    ∀ (len : Byte) (rest : List Byte), f.buffer = len :: rest → lenInRange len = true ∧ rest.length ≤ len.toNat + 2

/-- The payload of a frame of the part fits (R110). -/
def Body.fits (b : Body) : Prop := b.payload.length ≤ maxPayload

/-- The resend list bears consecutive numbers up to the next transmit sequence; the retransmit timer runs exactly while the list holds frames and no burst is
in progress; a burst stands within the list and holds the line; the holdoff runs only while an acknowledgement is owed; every frame fits. -/
def Link.sound (l : Link) : Prop :=
  (∀ (i : Nat) (h : i < l.resend.length), l.resend[i].seq = l.nextSeq - BitVec.ofNat 8 (l.resend.length - i)) ∧
    (l.retransmit.running = true ↔ l.resend ≠ [] ∧ l.burst = none) ∧
    (∀ i : Nat, l.burst = some i → l.resend ≠ [] ∧ i ≤ l.resend.length ∧ l.line.isIdle = false) ∧
    (l.holdoff.running = true → l.ackOwed = true) ∧
    (∀ f ∈ l.resend, f.body.fits) ∧
    (∀ (f : TxFrame) (n : Nat), l.line = .sending f n → f.body.fits ∧ n = f.size) ∧
    l.framer.sound

/-- Every Link Unit is sound. -/
def LinksSound (s : State) : Prop := ∀ p : Port, (s.link.get p).sound

/-! ## Between two commands -/

/-- Nothing more follows without a command: no event inside the part is due, and no IDLE transmitter has a frame to choose (R131; log 7, 19). -/
def Settled (s : State) : Prop := internal s = none ∧ ∀ p : Port, lineIdle p s = true → chooseFrame p s = none

/-! ## A request that is accepted -/

/-- A request with this SEQ is accepted on the port (R118) and reaches the Session Manager at once: the session is OPEN, the SEQ is the next one, a reply place
is free, no request of the port waits, and the part is between two commands. -/
def Accepting (s : State) (p : Port) (seq : Byte) : Prop :=
  Settled s ∧ isOpen s p = true ∧ (sessionOf s p).identity.isSome = true ∧ seq = (s.link.get p).lastAccepted + 1 ∧
    (s.link.get p).places < Config.replyPlaces ∧ s.mgr.handed.get p = none

/-- A request with this SEQ is accepted on the port and passes the first check of R150: no reset is in flight. -/
def Ready (s : State) (p : Port) (seq : Byte) : Prop := Accepting s p seq ∧ s.mgr.resetInFlight = none

/-- The port's session has role ADMIN. -/
def isAdmin (s : State) (p : Port) : Prop := (sessionOf s p).role = some .admin

/-- The reply to a request of this TYPE and SEQ under the port's session (R120, R163). -/
def replyOn (s : State) (p : Port) (typ seq : Byte) (st : Status) (data : ReplyData) : Reply :=
  { session := (sessionOf s p).identity.getD 0, typ, seq, status := st, data }

/-- A Link Unit that was SENDING, once a request with this SEQ and ACK byte has been accepted and answered: the ACK byte is read, the SEQ is the last
accepted, the reply waits behind the others, and an acknowledgement is owed (R115, R118, R119, R127). -/
def Link.afterAnswer (seq a : Byte) (r : Reply) (l : Link) : Link :=
  { (l.readAck a).accept seq with held := l.held, replies := l.replies ++ [r] }

/-- The request with this SEQ and ACK byte was accepted on the port and its reply stands in t: it waits in the reply queue, or it has been chosen and stands in
the resend list; the SEQ is the last accepted and the open mark is gone; the framer, the RTO and the places held for other replies are as before. On a line
that was SENDING the Link Unit is exactly the one that accepted and was answered. -/
def Answered (s t : State) (p : Port) (seq a : Byte) (r : Reply) : Prop :=
  (r ∈ (t.link.get p).replies ∨ ∃ f ∈ (t.link.get p).resend, f.body = .reply r) ∧
    (t.link.get p).lastAccepted = seq ∧ (t.link.get p).openMark = false ∧ (t.link.get p).framer = (s.link.get p).framer ∧
    (t.link.get p).rto = (s.link.get p).rto ∧ (t.link.get p).held = (s.link.get p).held ∧
    (lineIdle p s = false → t.link.get p = (s.link.get p).afterAnswer seq a r)

/-- The request with this SEQ and ACK byte was accepted on the port and waits for its reply: the SEQ is the last accepted, the open mark is gone, one more
reply place is held, the framer and the RTO are as before. On a line that was SENDING the Link Unit is exactly the one that accepted. -/
def AcceptedOn (s t : State) (p : Port) (seq a : Byte) : Prop :=
  (t.link.get p).lastAccepted = seq ∧ (t.link.get p).openMark = false ∧ (t.link.get p).framer = (s.link.get p).framer ∧
    (t.link.get p).rto = (s.link.get p).rto ∧ (t.link.get p).held = (s.link.get p).held + 1 ∧
    (lineIdle p s = false → t.link.get p = ((s.link.get p).readAck a).accept seq)

/-- What at most one composition at a port's transmitter makes of a Delivery Unit (R74, R87, R88), the reads of a LOSS record made in this state. -/
def ComposedFrom (s : State) (d d' : Delivery) : Prop :=
  d' = d ∨ d' = d.afterNotice ∨ d' = d.afterReport s.keys.transition s.scan.frameNumber

/-- The port's Delivery Unit went through this change, and a composition before or after it if the line was IDLE; through nothing else. -/
def Delivered (s t : State) (p : Port) (f : Delivery → Delivery) : Prop :=
  (∃ d : Delivery, ComposedFrom s (s.delivery.get p) d ∧ ComposedFrom t (f d) (t.delivery.get p)) ∧
    (lineIdle p s = false → t.delivery.get p = f (s.delivery.get p))

/-- A port's units l and d became l' and d' by nothing but the choice that its transmitter makes on them in this state: none on a line that was SENDING; on an
IDLE line the one that `choice` gives, if any (R131, R132; what it gives is ChoiceOrder's and NewFrameOrder's). -/
def ServedIn (t : State) (l l' : Link) (d d' : Delivery) : Prop :=
  (l', d') = if l.line.isIdle = true then (choice t.keys.transition t.scan.frameNumber l d).getD (l, d) else (l, d)

/-- A port's Delivery Unit took this post, and its transmitter made a choice after it at most. -/
def PostedTo (s t : State) (q : Port) (f : Delivery → Delivery) : Prop :=
  ServedIn t (s.link.get q) (t.link.get q) (f (s.delivery.get q)) (t.delivery.get q)

/-- A port's Link Unit and Delivery Unit stand in t as in s. -/
def PortKept (s t : State) (q : Port) : Prop := t.link.get q = s.link.get q ∧ t.delivery.get q = s.delivery.get q

/-- The Link Units and Delivery Units of the other ports stand in t as in s. -/
def OtherPortsKept (s t : State) (p : Port) : Prop :=
  ∀ q : Port, q ≠ p → PortKept s t q

/-- The port whose session is OPEN with role ADMIN, if any, took the post of this scan state (R18); the units of every other port stand. -/
def ScanStatePosted (s t : State) (st : ScanState) : Prop :=
  ∀ q : Port, if adminPort s = some q then PostedTo s t q (Delivery.takeScanState st) else PortKept s t q

/-- The reply stands at the port: it waits in the reply queue, or it has been chosen and stands in the resend list. -/
def Replied (t : State) (p : Port) (r : Reply) : Prop :=
  r ∈ (t.link.get p).replies ∨ ∃ f ∈ (t.link.get p).resend, f.body = .reply r

/-- Between s and t the Dispatcher routed this transition, the oldest one waiting, and `rest` waits (R62, R64, R65, R67): each STREAM member took the record,
each LATCHED member a changed but for a REPEAT; every other port stands, and so does a port whose session is not OPEN; a transition without a group was dropped.
Nothing else changed. -/
def Routed (s t : State) (tr : Transition) (rest : List Transition) : Prop :=
  t.disp = { s.disp with waiting := rest } ∧ t.scan = s.scan ∧ t.keys = s.keys ∧ t.groups = s.groups ∧ t.lamps = s.lamps ∧ t.mgr = s.mgr ∧
    t.pins = s.pins ∧ t.pending = s.pending ∧
    (tr.group = none → ∀ q : Port, PortKept s t q) ∧
    ∀ g : Group, tr.group = some g → ∀ q : Port,
      ((memberMode s g q = none ∨ isOpen s q = false) → PortKept s t q) ∧
      (isOpen s q = true → memberMode s g q = some .stream → PostedTo s t q (Delivery.takeRecord (.event tr))) ∧
      (isOpen s q = true → memberMode s g q = some .latched →
        (tr.kind = .repeated → PortKept s t q) ∧ (tr.kind ≠ .repeated → PostedTo s t q (Delivery.takeChanged g)))

/-- Between s and t a HALT in flight ended (R16, R18): HALTED is entered with every line released; the ADMIN port took the post of HALTED; the reply OK with scan
state HALTED was produced for the recorded port and session, after the post, if that session is still OPEN. Nothing else changed. -/
def HaltEnded (s t : State) (x : HaltInFlight) : Prop :=
  t.scan = { s.scan with
    state := .halted, halt := none, phase := .idle, recorded := 0, driveLines := 0, lampLines := 0, watchTimer := s.scan.watchTimer.stop } ∧
    t.keys = s.keys ∧ t.disp = s.disp ∧ t.groups = s.groups ∧ t.lamps = s.lamps ∧ t.mgr = s.mgr ∧ t.pins = s.pins ∧ t.pending = s.pending ∧
    (∀ q : Port, q ≠ x.port → if adminPort s = some q then PostedTo s t q (Delivery.takeScanState .halted) else PortKept s t q) ∧
    (isLive s x.port x.session = false → ScanStatePosted s t .halted) ∧
    (isLive s x.port x.session = true → 0 < (s.link.get x.port).held →
      let r : Reply := { session := x.session, typ := typeScanControl, seq := x.seq, status := .ok, data := .scan .halted }
      Delivered s t x.port (if adminPort s = some x.port then Delivery.takeScanState .halted else id) ∧ Replied t x.port r ∧
        (t.link.get x.port).held = (s.link.get x.port).held - 1 ∧
        (lineIdle x.port s = false →
          t.link.get x.port = { s.link.get x.port with held := (s.link.get x.port).held - 1, replies := (s.link.get x.port).replies ++ [r] }))

/-- The idle count once the Key Table, whose records stand in u, has taken the image of s (R5). -/
def idleCountAfter (s u : State) : Nat := if s.scan.recorded = 0 ∧ allUp u = true then min 65535 (s.scan.idleCount + 1) else 0

/-- Between s, where a completed scan frame's image waits and no HALT is in flight, and t the Key Table took the image, and the scanner went on to WATCH or to the
next scan frame's slot D0 (R4, R5, R6, R24). -/
def ImageTaken (s t : State) : Prop :=
  let u := takeImage s
  let idle := idleCountAfter s u
  t.keys = u.keys ∧ t.disp = u.disp ∧ t.groups = s.groups ∧ t.lamps = s.lamps ∧ t.mgr = s.mgr ∧ t.pins = s.pins ∧ t.pending = s.pending ∧
    if s.scan.setup.idleLimit ≠ 0 ∧ s.scan.setup.idleLimit * 16 ≤ idle ∧ allUp u = true ∧ anyLamp s = false then
      t.scan = { s.scan with
        idleCount := idle, state := .watch, phase := .idle, recorded := 0, driveLines := 0, lampLines := 0
        watchTimer := s.scan.watchTimer.start s.scan.setup.watchPeriod.ms } ∧
      ScanStatePosted s t .watch
    else
      t.scan = { s.scan with
        idleCount := idle, phase := .slot 0, recorded := 0
        driveLines := if s.scan.setup.columnMask.getLsbD 0 then oneDriveLine 0 else 0
        lampLines := if s.scan.setup.columnMask.getLsbD 0 then columnLamps u (s.scan.frameNumber + 1) 0 else 0 } ∧
      ∀ q : Port, PortKept s t q

/-- Between s, where the halt waits, and t the Key Table took the halt; while its releases wait to be routed HALTED waits, and when there are none the HALT in
flight ended at once (R16, R42, R62). -/
def HaltTaken (s t : State) (x : HaltInFlight) : Prop :=
  let v : State := { takeHalt s with scan := { s.scan with phase := .haltRouting } }
  (v.disp.waiting ≠ [] → t = v) ∧ (v.disp.waiting = [] → HaltEnded v t x)

/-- Between s, where a completed scan frame's image waits and a HALT is in flight, and t the Key Table took the image, without a test for WATCH; while the image's
transitions wait the halt waits, and when there are none it was taken at once (R16, R62). -/
def ImageTakenBeforeHalt (s t : State) (x : HaltInFlight) : Prop :=
  let u := takeImage s
  let w : State := { u with scan := { s.scan with idleCount := idleCountAfter s u, phase := .haltWaiting } }
  (w.disp.waiting ≠ [] → t = w) ∧ (w.disp.waiting = [] → HaltTaken w t x)

/-- Nothing but a SNAPSHOT waits for its owner on the ports of which this holds: each for the read of its port's earlier one (R81). -/
def OnlySnapshotsWait (s : State) (on : Port → Prop) : Prop :=
  ∀ (q : Port) (h : Handed), on q → s.mgr.handed.get q = some h → ∃ g : Group, h.ask = .snapshot g

/-- Between u, where no transition waits, and v the Key Table took the port's MAP KEYS that waited: its entries are applied in list order and it is answered OK with
the transition counter, if its session is still OPEN (R38, R39, R40). Nothing else changed but for a choice. -/
def MapKeysTaken (u v : State) (p : Port) (r : Request) (es : List (Key × Option Group)) : Prop :=
  let k := es.foldl remapKey u
  let l := u.link.get p
  let x : Reply := { session := r.session, typ := r.typ, seq := r.seq, status := .ok, data := .transition k.keys.transition }
  v.mgr = { u.mgr with handed := u.mgr.handed.set p none } ∧ v.scan = u.scan ∧ v.groups = u.groups ∧ v.lamps = u.lamps ∧ v.pins = u.pins ∧
    v.pending = u.pending ∧ OtherPortsKept u v p ∧
    (isLive u p r.session = true → v.keys = k.keys ∧ v.disp = k.disp ∧
      (0 < l.held →
        ServedIn v { l with held := l.held - 1, replies := l.replies ++ [x] } (v.link.get p) (u.delivery.get p) (v.delivery.get p))) ∧
    (isLive u p r.session = false → v.keys = u.keys ∧ v.disp = u.disp ∧ PortKept u v p)

/-- What follows in one step once no transition waits any more, while a MAP KEYS of the port waits: the stages of a scan frame's completion that are due and the MAP
KEYS, in either order where both can be taken (R41; log 6), until a transition waits again or nothing is left. -/
inductive FollowsWithMapKeys (p : Port) (r : Request) (es : List (Key × Option Group)) : State → State → Prop where
  /-- a transition waits again, and with it what is left (R62) -/
  | transitionWaits {u : State} : u.disp.waiting ≠ [] → FollowsWithMapKeys p r es u u
  /-- nothing is left -/
  | nothingLeft {u : State} : u.mgr.handed.get p = none → u.scan.phase ≠ .imageWaiting → u.scan.phase ≠ .haltWaiting →
      u.scan.phase ≠ .haltRouting → FollowsWithMapKeys p r es u u
  /-- the MAP KEYS is taken (R38) -/
  | mapKeys {u v t : State} : u.disp.waiting = [] → u.mgr.handed.get p = some { req := r, ask := .mapKeys es } → MapKeysTaken u v p r es →
      FollowsWithMapKeys p r es v t → FollowsWithMapKeys p r es u t
  /-- the image is taken, with no HALT in flight (R4, R5, R6, R24) -/
  | image {u v t : State} : u.disp.waiting = [] → u.scan.phase = .imageWaiting → u.scan.halt = none → ImageTaken u v →
      FollowsWithMapKeys p r es v t → FollowsWithMapKeys p r es u t
  /-- the image is taken, and the halt is due (R16) -/
  | imageBeforeHalt {u v t : State} : u.disp.waiting = [] → u.scan.phase = .imageWaiting → u.scan.halt ≠ none →
      v = { takeImage u with scan := { u.scan with idleCount := idleCountAfter u (takeImage u), phase := .haltWaiting }, races := v.races } →
      FollowsWithMapKeys p r es v t → FollowsWithMapKeys p r es u t
  /-- the halt is taken (R42) -/
  | halt {u v t : State} : u.disp.waiting = [] → u.scan.phase = .haltWaiting →
      v = { takeHalt u with scan := { u.scan with phase := .haltRouting }, races := v.races } →
      FollowsWithMapKeys p r es v t → FollowsWithMapKeys p r es u t
  /-- the HALT in flight ends (R16) -/
  | haltEnd {u v t : State} {x : HaltInFlight} : u.disp.waiting = [] → u.scan.phase = .haltRouting → u.scan.halt = some x → HaltEnded u v x →
      FollowsWithMapKeys p r es v t → FollowsWithMapKeys p r es u t

/-- The reply to a SNAPSHOT whose read is made in this state (R43, R78): the keys of the group that are DOWN or RELEASING, STUCK, and SUSPECT, the frame number of the
last image taken, one behind the scanner's while a completed frame's image waits (log 29), and the transition counter. -/
def SnapshotReadReply (s : State) (x : SnapshotInFlight) (r : Reply) : Prop :=
  ∃ down stuck suspect : KeySet,
    (∀ k : Key, down.getLsbD k.val =
      (s.keys.recs[k].group == some x.group && (s.keys.recs[k].state == .down || s.keys.recs[k].state == .releasing))) ∧
    (∀ k : Key, stuck.getLsbD k.val = (s.keys.recs[k].group == some x.group && s.keys.recs[k].state == .stuck)) ∧
    (∀ k : Key, suspect.getLsbD k.val = (s.keys.recs[k].group == some x.group && s.keys.recs[k].state == .suspect)) ∧
    r = { session := x.req.session, typ := x.req.typ, seq := x.req.seq, status := .ok
          data := .snapshot x.group down stuck suspect
            (if s.scan.phase = .imageWaiting then s.scan.frameNumber - 1 else s.scan.frameNumber) s.keys.transition }

/-- The panel, the key, group and lamp records, the Dispatcher, the pins and the queue of commands stand in t as in s. -/
def SamePanel (s t : State) : Prop :=
  t.scan = s.scan ∧ t.keys = s.keys ∧ t.groups = s.groups ∧ t.disp = s.disp ∧ t.lamps = s.lamps ∧ t.pins = s.pins ∧ t.pending = s.pending

/-- A request of the port changed nothing but what its acceptance and its answer change: the Session Manager stands, and so does the port's Delivery Unit but
for a composition. -/
def NothingElse (s t : State) (p : Port) : Prop := SamePanel s t ∧ OtherPortsKept s t p ∧ t.mgr = s.mgr ∧ Delivered s t p id

/-- The session of the port has ended in t, in this state (R148): role and open tag cleared, the identity kept, the other sessions and the request handed to an
owner as they were, the admin claim released if the port held it. -/
def SessionEnded (s t : State) (p : Port) (st : SessionState) : Prop :=
  sessionOf t p = { sessionOf s p with state := st, role := none, tag := none } ∧
    (∀ q : Port, q ≠ p → sessionOf t q = sessionOf s q) ∧
    t.mgr.adminClaim = (if s.mgr.adminClaim = some p then none else s.mgr.adminClaim) ∧
    t.mgr.resetInFlight = s.mgr.resetInFlight ∧ t.mgr.handed = s.mgr.handed

/-- No port has an entry in the group's member set. -/
abbrev NoMembers (s : State) (g : Group) : Prop := memberMode s g .p0 = none ∧ memberMode s g .p1 = none ∧ memberMode s g .p2 = none

/-- A lamp record after blanking (R107): a switched lamp is OFF; a lamp in FOLLOW, and every group, stays. -/
def LampRec.darkened (l : LampRec) : LampRec :=
  { l with
    mode := match l.mode with
      | .switched _ => .switched .off
      | .follow k => .follow k }

/-- The port is in no group in t, every other membership and every repeat value as in s (R57); the lamps of the groups so left without members are blanked, and
no other lamp changes (R56, R107). -/
def PortRemoved (s t : State) (p : Port) : Prop :=
  (∀ g : Group, t.groups[g] = { s.groups[g] with members := s.groups[g].members.set p none }) ∧
    ∀ l : Lamp,
      t.lamps[l] =
        match s.lamps[l].group with
        | some g =>
          if (memberMode s g p).isSome = true ∧ NoMembers t g then s.lamps[l].darkened else s.lamps[l]
        | none => s.lamps[l]

/-- Commands carried out one after another while each ends in a next state. -/
def runAll : List Instr → State → Host.Outcome State Fault Refusal
  | [], s => .next s
  | i :: is, s =>
    match exec i s with
    | .next t => runAll is t
    | .fault f => .fault f
    | .refused r => .refused r

end Sys2Proof.Machine
end

