-- ==== Sys2Proof/Certificates/Slice0/Obligations.lean ====
section
/-! DEFINITION. The statements for the provers. Each is about one step of the part, or about a function that the step's meaning calls by that name; the words
they use (Ready, Answered, Delivered, NothingElse and the rest) stand in Sys2Proof/Safety.lean. A statement that rests on a choice of the model names the log
entry. -/

open Sys2Proof Sys2Proof.Machine

/-! ## The step and the reset -/

/-- A step takes the command at the front of the queue and carries it out on the queue's rest; with an empty queue nothing changes (log 3). -/
def Obligations.StepRunsFrontCommand : Prop :=
  (∀ (c : Instr) (rest : List Instr) (s : State), step { s with pending := c :: rest } = exec c { s with pending := rest }) ∧
    ∀ s : State, s.pending = [] → step s = .next s

/-- What each block holds right after reset (R19, R20, R45, R62, R72, R79, R95, R97, R130, R131, R155); and a low pulse on nRST or a power-up gives
every block these values and takes the bit rate from the straps, the queue of commands and the model's counter of free values staying (log 10, 13, 16). -/
def Obligations.ResetValues : Prop :=
  (let s := State.reset
   (s.scan.state = .halted ∧ s.scan.frameNumber = 0 ∧ s.scan.idleCount = 0 ∧ s.scan.halt = none ∧ s.scan.phase = .idle ∧
     s.scan.watchTimer.running = false ∧ s.scan.driveLines = 0 ∧ s.scan.lampLines = 0 ∧
     s.scan.setup = { framePeriod := .ms4, np := 3, nr := 3, matrix := .plain, columnMask := 0xFFFF, idleLimit := 0, watchPeriod := .ms64, stuckLimit := 0 }) ∧
   (s.keys.transition = 0 ∧ ∀ k : Key, s.keys.recs[k] = { state := .up, count := 0, countdown := 0, stuckCount := 0, group := none }) ∧
   (∀ g : Group, s.groups[g].delay = 0 ∧ s.groups[g].interval = 8 ∧ ∀ p : Port, memberMode s g p = none) ∧
   (∀ l : Lamp, s.lamps[l] = { group := none, mode := .switched .off }) ∧
   (s.disp.waiting = [] ∧ ∀ p : Port, s.disp.snapshots.get p = none) ∧
   (∀ p : Port, s.delivery.get p =
     { queue := [], loss := 0, credits := 0, armed := 0, changed := 0, dissolved := 0, scanEntry := none }) ∧
   (∀ p : Port, (s.link.get p).framer.state = .hunt ∧ (s.link.get p).framer.buffer = [] ∧ (s.link.get p).framer.gapRunning = false ∧
     (s.link.get p).lastAccepted = 0 ∧ (s.link.get p).openMark = false ∧ (s.link.get p).replies = [] ∧ (s.link.get p).held = 0 ∧
     (s.link.get p).resend = [] ∧ (s.link.get p).nextSeq = 0 ∧ (s.link.get p).rto = 10 ∧ (s.link.get p).retransmit.running = false ∧
     (s.link.get p).retry = 0 ∧ (s.link.get p).burst = none ∧ (s.link.get p).ackOwed = false ∧ (s.link.get p).holdoff.running = false ∧
     (s.link.get p).noSession = false ∧ (s.link.get p).openRefused = none ∧ (s.link.get p).replyRun = 0 ∧ (s.link.get p).line = .idle) ∧
   (∀ p : Port, sessionOf s p = { state := .closed, role := none, tag := none, identity := none }) ∧
   s.mgr.adminClaim = none ∧ s.mgr.resetInFlight = none ∧ (∀ p : Port, s.mgr.inbox.get p = [] ∧ s.mgr.handed.get p = none) ∧ s.pending = []) ∧
  (∀ (straps : BitVec 2) (s : State),
     let t : State := { State.reset with pins := { straps := straps, bitRate := straps }, races := s.races, pending := s.pending }
     exec (.nrst straps) s = .next t ∧ exec (.powerUp straps) s = .next t)

/-- The state after reset meets every condition that a step keeps. -/
def Obligations.ResetMeetsInvariants : Prop :=
  Ranges State.reset ∧ PanelSound State.reset ∧ SessionsSound State.reset ∧ MembersSound State.reset ∧ LinksSound State.reset ∧ Settled State.reset

/-! ## The panel -/

/-- The end of a column slot: a driven column is sampled, an idle one reads 0, the other columns' bits stay; then the next slot pulls its drive line
and drives the lamp lines of its lit lamps, if it is driven, or, after D15, the completion is due (log 11). Nothing else changes. Without a slot in
progress nothing changes (log 4). -/
def Obligations.SlotEnd : Prop :=
  (∀ (s : State) (c : Column) (sense : BitVec 8), s.scan.phase = .slot c →
    ∃ t : State, exec (.columnSlotEnd sense) s = .next t ∧
      t = { s with
        scan := { s.scan with
          recorded := t.scan.recorded, phase := t.scan.phase, driveLines := t.scan.driveLines, lampLines := t.scan.lampLines } } ∧
      (∀ (c' : Column) (r : Fin 8),
        rawBit t.scan.recorded c' r =
          if c' = c then s.scan.setup.columnMask.getLsbD c.val && !sense.getLsbD r.val else rawBit s.scan.recorded c' r) ∧
      (c.val = 15 → t.scan.phase = .frameEnd ∧ t.scan.driveLines = 0 ∧ t.scan.lampLines = 0) ∧
      ∀ n : Column, n.val = c.val + 1 →
        t.scan.phase = .slot n ∧
        t.scan.driveLines = (if s.scan.setup.columnMask.getLsbD n.val then oneDriveLine n else 0) ∧
        ∀ r : Fin 8,
          t.scan.lampLines.getLsbD r.val = (s.scan.setup.columnMask.getLsbD n.val && lampLit s (s.scan.frameNumber + 1) (keyAt n r))) ∧
  ∀ (s : State) (sense : BitVec 8), (∀ c : Column, s.scan.phase ≠ .slot c) → exec (.columnSlotEnd sense) s = .next s

/-- Lit or dark by the mode in the lamp's record and the number of the scan frame being driven (section 6.2). -/
def Obligations.LampLitByMode : Prop :=
  ∀ (s : State) (n : Word16) (l : Lamp),
    (s.lamps[l].mode = .switched .off → lampLit s n l = false) ∧
    (s.lamps[l].mode = .switched .on → lampLit s n l = true) ∧
    (s.lamps[l].mode = .switched .blinkA → (lampLit s n l = true ↔ n.toNat % 64 ≤ 31)) ∧
    (s.lamps[l].mode = .switched .blinkB → (lampLit s n l = true ↔ n.toNat % 16 ≤ 7)) ∧
    ∀ k : Key, s.lamps[l].mode = .follow k →
      (lampLit s n l = true ↔
        s.keys.recs[k].state = .down ∨ s.keys.recs[k].state = .releasing ∨ s.keys.recs[k].state = .stuck)

/-- Which keys an image puts in a suspect rectangle; a key on a disabled column is recorded as 0 and is in none (R25). -/
def Obligations.GhostRectangles : Prop :=
  (∀ (raw : BitVec 128) (c : Column) (r : Fin 8),
    suspectIn .plain raw (keyAt c r) = true ↔
      rawBit raw c r = true ∧
        ∃ (c' : Column) (r' : Fin 8), c' ≠ c ∧ r' ≠ r ∧ rawBit raw c r' = true ∧ rawBit raw c' r = true ∧ rawBit raw c' r' = true) ∧
  (∀ (raw : BitVec 128) (k : Key), suspectIn .isolated raw k = false) ∧
  ∀ (s : State) (sense : BitVec 8) (c : Column) (r : Fin 8), s.scan.phase = .slot c → s.scan.setup.columnMask.getLsbD c.val = false →
    ∃ t : State, exec (.columnSlotEnd sense) s = .next t ∧ rawBit t.scan.recorded c r = false ∧
      suspectIn t.scan.setup.matrix t.scan.recorded (keyAt c r) = false

/-- One image's step of a key in UP, PRESSING or SUSPECT (R29, R30; from R28 and R33): what its record becomes and what is emitted. -/
def Obligations.KeyStepNotHeld : Prop :=
  ∀ (s : State) (k : Key), s.scan.setup.inRange = true →
    let x := s.keys.recs[k]
    let raw := s.scan.recorded.getLsbD k.val
    let sus := suspectIn s.scan.setup.matrix s.scan.recorded k
    let pressed : KeyRec × Emitted :=
      ({ x with state := .down, count := 0, stuckCount := 0, countdown := delayOf s x.group }, some (.press, Flags.none))
    (x.state = .up →
      (raw = false → stepOne s k = (x, none)) ∧
      (raw = true → sus = true → stepOne s k = ({ x with state := .suspect, count := 0 }, none)) ∧
      (raw = true → sus = false →
        stepOne s k = if s.scan.setup.np = 1 then pressed else ({ x with state := .pressing, count := 1 }, none))) ∧
    (x.state = .pressing →
      (sus = true → stepOne s k = ({ x with state := .suspect, count := 0 }, none)) ∧
      (sus = false → raw = true →
        stepOne s k =
          if s.scan.setup.np ≤ x.count + 1 then pressed else ({ x with state := .pressing, count := x.count + 1 }, none)) ∧
      (raw = false → stepOne s k = ({ x with state := .up, count := 0 }, none))) ∧
    (x.state = .suspect →
      (sus = true → stepOne s k = (x, none)) ∧
      (sus = false → raw = true →
        stepOne s k = if s.scan.setup.np = 1 then pressed else ({ x with state := .pressing, count := 1 }, none)) ∧
      (raw = false → stepOne s k = ({ x with state := .up, count := 0 }, none)))

/-- One image's step of a key in DOWN, RELEASING or STUCK (R31, R32, R34, R36); whether the key is in a rectangle does not enter (R26). -/
def Obligations.KeyStepHeld : Prop :=
  ∀ (s : State) (k : Key), s.scan.setup.inRange = true →
    let x := s.keys.recs[k]
    let raw := s.scan.recorded.getLsbD k.val
    let released : KeyRec := { x with state := .up, count := 0, countdown := 0, stuckCount := 0 }
    let stuck := min 65535 (x.stuckCount + 1)
    (x.state = .down →
      (raw = false →
        stepOne s k =
          if s.scan.setup.nr = 1 then (released, some (.release, Flags.none)) else ({ x with state := .releasing, count := 1 }, none)) ∧
      (raw = true →
        (s.scan.setup.stuckLimit ≠ 0 → s.scan.setup.stuckLimit * 256 ≤ stuck →
          stepOne s k = ({ x with state := .stuck, count := 0, stuckCount := stuck }, some (.stuck, Flags.none))) ∧
        ((s.scan.setup.stuckLimit = 0 ∨ stuck < s.scan.setup.stuckLimit * 256) →
          (x.countdown = 0 → stepOne s k = ({ x with stuckCount := stuck }, none)) ∧
          (x.countdown = 1 →
            stepOne s k = ({ x with stuckCount := stuck, countdown := intervalOf s x.group }, some (.repeated, Flags.none))) ∧
          (2 ≤ x.countdown → stepOne s k = ({ x with stuckCount := stuck, countdown := x.countdown - 1 }, none))))) ∧
    (x.state = .releasing →
      (raw = true → stepOne s k = ({ x with state := .down, count := 0 }, none)) ∧
      (raw = false →
        stepOne s k =
          if s.scan.setup.nr ≤ x.count + 1 then (released, some (.release, Flags.none))
          else ({ x with count := x.count + 1 }, none))) ∧
    (x.state = .stuck →
      (raw = true → stepOne s k = ({ x with count := 0 }, none)) ∧
      (raw = false →
        stepOne s k =
          if s.scan.setup.nr ≤ x.count + 1 then (released, some (.release, { Flags.none with wasStuck := true }))
          else ({ x with count := x.count + 1 }, none)))

/-- The taking of an image: every key is stepped once on the records as they stood, and the transitions emitted are handed to the Dispatcher in increasing key
number, numbered one after another from the counter, with the frame number and each key's group (R21, R22, R24). Nothing else changes. -/
def Obligations.ImageEmitsNumberedTransitions : Prop :=
  ∀ s : State,
    let t := takeImage s
    t = { s with keys := t.keys, disp := { s.disp with waiting := t.disp.waiting } } ∧
    (∀ k : Key, t.keys.recs[k] = (stepOne s k).1) ∧
    ∃ new : List Transition,
      t.disp.waiting = s.disp.waiting ++ new ∧
      new.Pairwise (fun a b => a.key.val < b.key.val) ∧
      (∀ (k : Key) (kind : Kind) (fl : Flags), (stepOne s k).2 = some (kind, fl) ↔ ∃ x ∈ new, x.key = k ∧ x.kind = kind ∧ x.flags = fl) ∧
      (∀ x ∈ new, x.group = s.keys.recs[x.key].group ∧ x.frame = s.scan.frameNumber) ∧
      (∀ (i : Nat) (h : i < new.length), new[i].number = s.keys.transition + BitVec.ofNat 16 (i + 1)) ∧
      t.keys.transition = s.keys.transition + BitVec.ofNat 16 new.length

/-- One image's step of a key emits a PRESS exactly when it takes the key from not held to held, and a RELEASE exactly when it takes it from held to not held; the
halt of a key brings it to UP and emits a RELEASE exactly when it was held (part of R23; a remap's release is MapKeysEntry's). -/
def Obligations.PressAndReleasePair : Prop :=
  ∀ (s : State) (k : Key),
    let x := s.keys.recs[k]
    (((∃ fl : Flags, (stepOne s k).2 = some (.press, fl)) ↔ x.state.held = false ∧ (stepOne s k).1.state.held = true) ∧
      ((∃ fl : Flags, (stepOne s k).2 = some (.release, fl)) ↔ x.state.held = true ∧ (stepOne s k).1.state.held = false)) ∧
    (haltKey x).1 = { x with state := .up, count := 0, countdown := 0, stuckCount := 0 } ∧
    (haltKey x).2 = if x.state.held = true then some (.release, { Flags.none with halted := true, wasStuck := x.state == .stuck }) else none

/-- The taking of the halt: every key returns to UP, and every held key's RELEASE flagged HALTED is handed over in increasing key number, numbered
from the counter (R42). Nothing else changes. -/
def Obligations.HaltReleasesHeldKeys : Prop :=
  ∀ s : State,
    let t := takeHalt s
    t = { s with keys := t.keys, disp := { s.disp with waiting := t.disp.waiting } } ∧
    (∀ k : Key, t.keys.recs[k] = { s.keys.recs[k] with state := .up, count := 0, countdown := 0, stuckCount := 0 }) ∧
    ∃ new : List Transition,
      t.disp.waiting = s.disp.waiting ++ new ∧
      new.Pairwise (fun a b => a.key.val < b.key.val) ∧
      (∀ k : Key, s.keys.recs[k].state.held = true ↔ ∃ x ∈ new, x.key = k) ∧
      (∀ x ∈ new, x.kind = .release ∧ x.group = s.keys.recs[x.key].group ∧ x.frame = s.scan.frameNumber ∧
        x.flags = { remapped := false, halted := true, wasStuck := s.keys.recs[x.key].state == .stuck }) ∧
      (∀ (i : Nat) (h : i < new.length), new[i].number = s.keys.transition + BitVec.ofNat 16 (i + 1)) ∧
      t.keys.transition = s.keys.transition + BitVec.ofNat 16 new.length

/-- One MAP KEYS entry: a held key given another group is released in its old one, flagged REMAPPED, and stands in PRESSING with count 0 under the new
one; a key not held changes its group alone; the present group changes nothing (R39, R40). -/
def Obligations.MapKeysEntry : Prop :=
  ∀ (s : State) (k : Key) (g : Option Group),
    let x := s.keys.recs[k]
    let t := remapKey s (k, g)
    (x.group = g → t = s) ∧
    (x.group ≠ g → x.state.held = false →
      t = { s with keys := { s.keys with recs := s.keys.recs.set k.val { x with group := g } } }) ∧
    (x.group ≠ g → x.state.held = true →
      t = { s with
        keys := {
          recs := s.keys.recs.set k.val { state := .pressing, count := 0, countdown := 0, stuckCount := 0, group := g }
          transition := s.keys.transition + 1 }
        disp := { s.disp with
          waiting := s.disp.waiting ++ [{
            number := s.keys.transition + 1, frame := s.scan.frameNumber, key := k, group := x.group, kind := .release
            flags := { remapped := true, halted := false, wasStuck := x.state == .stuck } }] } })

/-- A scan frame's completion with no HALT in flight (R4, R5, R6): the frame number advances; the Key Table takes the image, or, while a transition waits, the image
waits (R62); then the idle count, and WATCH or the next frame from slot D0. Without a completion due nothing changes, as the model's choice (log 4, 7, 11). -/
def Obligations.FrameCompletion : Prop :=
  (∀ s : State, s.scan.phase = .frameEnd → Settled s → s.disp.waiting ≠ [] →
    exec .scanFrameCompletion s =
      .next { s with scan := { s.scan with frameNumber := s.scan.frameNumber + 1, phase := .imageWaiting } }) ∧
  (∀ s : State, s.scan.phase = .frameEnd → Settled s → s.disp.waiting = [] → s.scan.halt = none →
    ∃ t : State, exec .scanFrameCompletion s = .next t ∧
      ImageTaken { s with scan := { s.scan with frameNumber := s.scan.frameNumber + 1, phase := .imageWaiting } } t) ∧
  ∀ s : State, s.scan.phase ≠ .frameEnd → exec .scanFrameCompletion s = .next s

/-- A scan frame's completion with a HALT in flight (R16): no test for WATCH is made. While the image's transitions wait, the halt waits; when there are none it is
taken; while its releases wait, HALTED waits; when there are none HALTED is entered, posted to the ADMIN port, and the reply OK with scan state HALTED produced for
the recorded port and session, if that session is still OPEN (log 7, 9). -/
def Obligations.FrameCompletionWithHalt : Prop :=
  ∀ (s : State) (x : HaltInFlight), s.scan.phase = .frameEnd → Settled s → s.disp.waiting = [] → s.scan.halt = some x →
    ∃ t : State, exec .scanFrameCompletion s = .next t ∧
      ImageTakenBeforeHalt { s with scan := { s.scan with frameNumber := s.scan.frameNumber + 1, phase := .imageWaiting } } t x

/-- While a halt's releases are routed: each routing posts to the members as ever, and the routing of the last release also ends the HALT in flight, in the same step,
as the model reads R16 (log 7, 9): HALTED is entered and posted to the ADMIN port, and the reply OK with scan state HALTED is produced for the recorded port and
session, if that session is still OPEN; with further transitions the halt goes on (R16, R17, R18, R65, R67). With a MAP KEYS waiting beside it: WaitingRequests. -/
def Obligations.HaltEndsWhenRouted : Prop :=
  ∀ (s : State) (x : HaltInFlight) (tr : Transition) (rest : List Transition),
    s.scan.phase = .haltRouting → s.scan.halt = some x → s.disp.waiting = tr :: rest → Settled s →
    OnlySnapshotsWait s (fun _ => True) →
    ∃ u t : State, exec .routeTransition s = .next t ∧ Routed s u tr rest ∧ (rest ≠ [] → t = u) ∧ (rest = [] → HaltEnded u t x)

/-- What waited for the Dispatcher follows the routing of the last transition, in the same step (R62; log 7, 8, 9): a waiting image is taken, with what its taking
brings with and without a HALT in flight; a waiting halt is taken; and a request to the scanner that waited with the image is taken once the image has been, as
it would have been on its arrival: SCAN SETUP is answered SCAN_RUNNING, START OK; HALT records a HALT in flight, or, where the image's test has led to
WATCH, enters HALTED; WATCH is answered OK or NOT_IDLE (R11, R13, R14, R15). A SNAPSHOT that waits for its port's earlier read goes on waiting (R81); what
follows with a MAP KEYS waiting is WaitingRequests'. -/
def Obligations.LastRoutingTakesWhatWaited : Prop :=
  (∀ (s : State) (tr : Transition), s.disp.waiting = [tr] → Settled s → OnlySnapshotsWait s (fun _ => True) →
    (s.scan.phase = .imageWaiting → s.scan.halt = none →
      ∃ u t : State, exec .routeTransition s = .next t ∧ Routed s u tr [] ∧ ImageTaken u t) ∧
    ∀ x : HaltInFlight, s.scan.halt = some x →
      (s.scan.phase = .imageWaiting →
        ∃ u t : State, exec .routeTransition s = .next t ∧ Routed s u tr [] ∧ ImageTakenBeforeHalt u t x) ∧
      (s.scan.phase = .haltWaiting → ∃ u t : State, exec .routeTransition s = .next t ∧ Routed s u tr [] ∧ HaltTaken u t x)) ∧
  ∀ (s : State) (tr : Transition) (p : Port) (r : Request) (ask : Ask),
    s.disp.waiting = [tr] → Settled s → PanelSound s → s.scan.phase = .imageWaiting → s.scan.halt = none →
    s.mgr.handed.get p = some { req := r, ask := ask } → ((∃ su : ScanSetup, ask = .scanSetup su) ∨ ∃ op : ScanOp, ask = .scanControl op) →
    r.port = p → OnlySnapshotsWait s (· ≠ p) → s.mgr.inbox.get p = [] → isLive s p r.session = true → 0 < (s.link.get p).held →
    let answer : Status → ReplyData → Reply := fun st data => { session := r.session, typ := r.typ, seq := r.seq, status := st, data := data }
    ∃ u v t : State, exec .routeTransition s = .next t ∧ Routed s u tr [] ∧ ImageTaken u v ∧
      t.mgr = { s.mgr with handed := s.mgr.handed.set p none } ∧ t.keys = v.keys ∧ t.disp = v.disp ∧ t.groups = s.groups ∧ t.lamps = s.lamps ∧
      (∀ su : ScanSetup, ask = .scanSetup su → t.scan = v.scan ∧ Replied t p (answer .scanRunning .none)) ∧
      (ask = .scanControl .start → t.scan.state = .active ∧ t.scan.halt = none ∧ Replied t p (answer .ok (.scan .active))) ∧
      (ask = .scanControl .halt →
        (v.scan.state = .watch → t.scan.state = .halted ∧ t.scan.halt = none ∧ Replied t p (answer .ok (.scan .halted))) ∧
        (v.scan.state = .active →
          t.scan = { v.scan with halt := some { port := p, session := r.session, seq := r.seq } } ∧ (t.link.get p).held = (v.link.get p).held)) ∧
      (ask = .scanControl .watch →
        (v.scan.state = .watch ∨ (allUp v = true ∧ anyLamp v = false) →
          t.scan.state = .watch ∧ t.scan.phase = .idle ∧ Replied t p (answer .ok (.scan .watch))) ∧
        (v.scan.state = .active → (allUp v = false ∨ anyLamp v = true) →
          t.scan = v.scan ∧ Replied t p (answer .notIdle (.scan .active))))

/-- What wakes the scanner from WATCH, and what does not. A watch sample that reads a sense line low in WATCH leads to ACTIVE: the timer stops, the idle count is
0, a scan frame begins with slot D0, the change is posted; a sample that reads none, or drives no column, restarts the timer (R8). A lit demand that was signalled
is taken: in WATCH it leads to ACTIVE in the same way, in ACTIVE and in HALTED it changes nothing but that it is taken (R7, R9; log 10). That a sample outside
WATCH, or a demand that was not signalled, changes nothing is the model's choice (log 4). -/
def Obligations.WatchSampleAndLitDemand : Prop :=
  (∀ (s : State) (sense : BitVec 8), s.scan.state = .watch → PanelSound s → Settled s →
    s.scan.setup.columnMask ≠ 0 → sense ≠ 0xFF →
    ∃ t : State, exec (.watchSample sense) s = .next t ∧
      t.scan = { s.scan with
        state := .active, idleCount := 0, watchTimer := s.scan.watchTimer.stop, phase := .slot 0, recorded := 0
        driveLines := if s.scan.setup.columnMask.getLsbD 0 then oneDriveLine 0 else 0
        lampLines := if s.scan.setup.columnMask.getLsbD 0 then columnLamps s (s.scan.frameNumber + 1) 0 else 0 } ∧
      t.keys = s.keys ∧ t.groups = s.groups ∧ t.disp = s.disp ∧ t.lamps = s.lamps ∧ t.mgr = s.mgr ∧ t.pins = s.pins ∧ t.pending = s.pending ∧
      ScanStatePosted s t .active) ∧
  (∀ (s : State) (sense : BitVec 8), s.scan.state = .watch → Settled s → (s.scan.setup.columnMask = 0 ∨ sense = 0xFF) →
    exec (.watchSample sense) s =
      .next { s with scan := { s.scan with watchTimer := s.scan.watchTimer.start s.scan.setup.watchPeriod.ms } }) ∧
  (∀ (s : State) (sense : BitVec 8), s.scan.state ≠ .watch → exec (.watchSample sense) s = .next s) ∧
  (∀ (s : State) (n : Nat), s.scan.litDemands = n + 1 → s.scan.state = .watch → PanelSound s → Settled s →
    ∃ t : State, exec .litDemand s = .next t ∧
      t.scan = { s.scan with
        litDemands := n, state := .active, idleCount := 0, watchTimer := s.scan.watchTimer.stop, phase := .slot 0, recorded := 0
        driveLines := if s.scan.setup.columnMask.getLsbD 0 then oneDriveLine 0 else 0
        lampLines := if s.scan.setup.columnMask.getLsbD 0 then columnLamps s (s.scan.frameNumber + 1) 0 else 0 } ∧
      t.keys = s.keys ∧ t.groups = s.groups ∧ t.disp = s.disp ∧ t.lamps = s.lamps ∧ t.mgr = s.mgr ∧ t.pins = s.pins ∧ t.pending = s.pending ∧
      ScanStatePosted s t .active) ∧
  (∀ (s : State) (n : Nat), s.scan.litDemands = n + 1 → s.scan.state ≠ .watch → Settled s →
    exec .litDemand s = .next { s with scan := { s.scan with litDemands := n } }) ∧
  ∀ s : State, s.scan.litDemands = 0 → exec .litDemand s = .next s

/-! ## The scanner's requests -/

/-- SCAN SETUP from the ADMIN session: in HALTED the whole setup is replaced and the reply is OK; in ACTIVE and WATCH the reply is SCAN_RUNNING and the setup
stays, with a HALT in flight wherever the scanner stands (R11, R17). Beside an image that waits, with no HALT in flight, this request and the three SCAN CONTROLs
wait (log 8): WaitingRequests. -/
def Obligations.ScanSetupRequest : Prop :=
  ∀ (s : State) (p : Port) (seq a : Byte) (payload : List Byte) (su : ScanSetup),
    Ready s p seq → isAdmin s p → (s.scan.phase ≠ .imageWaiting ∨ s.scan.halt.isSome = true) → decodeRequest typeScanSetup payload = .ok (.scanSetup su) →
    ∃ t : State, exec (.scanSetup p seq a payload) s = .next t ∧
      (s.scan.state = .halted →
        Answered s t p seq a (replyOn s p typeScanSetup seq .ok .none) ∧
          NothingElse { s with scan := { s.scan with setup := su } } t p) ∧
      (s.scan.state ≠ .halted →
        Answered s t p seq a (replyOn s p typeScanSetup seq .scanRunning .none) ∧ NothingElse s t p)

/-- SCAN CONTROL START from the ADMIN session: from HALTED and from WATCH the scanner enters ACTIVE with slot D0, the frame number kept and the change
posted, and the reply is OK with ACTIVE; in ACTIVE the reply is OK and nothing changes; while a HALT is in flight the reply is BUSY (R13, R17, R18).
-/
def Obligations.ScanStartRequest : Prop :=
  ∀ (s : State) (p : Port) (seq a : Byte),
    Ready s p seq → isAdmin s p → SessionsSound s → (s.scan.phase ≠ .imageWaiting ∨ s.scan.halt.isSome = true) →
    ∃ t : State, exec (.scanControlStart p seq a []) s = .next t ∧
      (s.scan.halt.isSome = true →
        Answered s t p seq a (replyOn s p typeScanControl seq .busy (.scan s.scan.state)) ∧ NothingElse s t p) ∧
      (s.scan.halt = none → s.scan.state = .active →
        Answered s t p seq a (replyOn s p typeScanControl seq .ok (.scan .active)) ∧ NothingElse s t p) ∧
      (s.scan.halt = none → s.scan.state ≠ .active →
        Answered s t p seq a (replyOn s p typeScanControl seq .ok (.scan .active)) ∧
        Delivered s t p (Delivery.takeScanState .active) ∧ OtherPortsKept s t p ∧ t.mgr = s.mgr ∧
        SamePanel
          { s with
            scan := { s.scan with
              state := .active, idleCount := 0, watchTimer := s.scan.watchTimer.stop, phase := .slot 0, recorded := 0
              driveLines := if s.scan.setup.columnMask.getLsbD 0 then oneDriveLine 0 else 0
              lampLines := if s.scan.setup.columnMask.getLsbD 0 then columnLamps s (s.scan.frameNumber + 1) 0 else 0 } } t)

/-- SCAN CONTROL HALT from the ADMIN session: in ACTIVE a HALT in flight is recorded, the scan frame goes on and no reply is produced yet; from WATCH
the scanner enters HALTED at once, posted and answered; in HALTED the reply is OK; while a HALT is in flight the reply is BUSY (R15, R17, R18). -/
def Obligations.ScanHaltRequest : Prop :=
  ∀ (s : State) (p : Port) (seq a : Byte),
    Ready s p seq → isAdmin s p → SessionsSound s → (s.scan.phase ≠ .imageWaiting ∨ s.scan.halt.isSome = true) →
    ∃ t : State, exec (.scanControlHalt p seq a []) s = .next t ∧
      (s.scan.halt.isSome = true →
        Answered s t p seq a (replyOn s p typeScanControl seq .busy (.scan s.scan.state)) ∧ NothingElse s t p) ∧
      (s.scan.halt = none → s.scan.state = .halted →
        Answered s t p seq a (replyOn s p typeScanControl seq .ok (.scan .halted)) ∧ NothingElse s t p) ∧
      (s.scan.halt = none → s.scan.state = .watch →
        Answered s t p seq a (replyOn s p typeScanControl seq .ok (.scan .halted)) ∧
        Delivered s t p (Delivery.takeScanState .halted) ∧ OtherPortsKept s t p ∧ t.mgr = s.mgr ∧
        SamePanel
          { s with
            scan := { s.scan with
              state := .halted, watchTimer := s.scan.watchTimer.stop, phase := .idle, recorded := 0, driveLines := 0, lampLines := 0 } } t) ∧
      (s.scan.halt = none → s.scan.state = .active →
        AcceptedOn s t p seq a ∧
          NothingElse
            { s with scan := { s.scan with halt := some { port := p, session := (sessionOf s p).identity.getD 0, seq := seq } } } t p)

/-- SCAN CONTROL WATCH from the ADMIN session: in ACTIVE with every key UP and no lamp ON or blinking the scan frame is abandoned and WATCH entered,
posted and answered; else NOT_IDLE; in WATCH OK; in HALTED NOT_SCANNING; while a HALT is in flight BUSY (R14, R17, R18). -/
def Obligations.ScanWatchRequest : Prop :=
  ∀ (s : State) (p : Port) (seq a : Byte),
    Ready s p seq → isAdmin s p → SessionsSound s → (s.scan.phase ≠ .imageWaiting ∨ s.scan.halt.isSome = true) →
    ∃ t : State, exec (.scanControlWatch p seq a []) s = .next t ∧
      (s.scan.halt.isSome = true →
        Answered s t p seq a (replyOn s p typeScanControl seq .busy (.scan s.scan.state)) ∧ NothingElse s t p) ∧
      (s.scan.halt = none → s.scan.state = .halted →
        Answered s t p seq a (replyOn s p typeScanControl seq .notScanning (.scan .halted)) ∧ NothingElse s t p) ∧
      (s.scan.halt = none → s.scan.state = .watch →
        Answered s t p seq a (replyOn s p typeScanControl seq .ok (.scan .watch)) ∧ NothingElse s t p) ∧
      (s.scan.halt = none → s.scan.state = .active → (allUp s = false ∨ anyLamp s = true) →
        Answered s t p seq a (replyOn s p typeScanControl seq .notIdle (.scan .active)) ∧ NothingElse s t p) ∧
      (s.scan.halt = none → s.scan.state = .active → allUp s = true → anyLamp s = false →
        Answered s t p seq a (replyOn s p typeScanControl seq .ok (.scan .watch)) ∧
        Delivered s t p (Delivery.takeScanState .watch) ∧ OtherPortsKept s t p ∧ t.mgr = s.mgr ∧
        SamePanel
          { s with
            scan := { s.scan with
              state := .watch, watchTimer := s.scan.watchTimer.start s.scan.setup.watchPeriod.ms, phase := .idle, recorded := 0
              driveLines := 0, lampLines := 0 } } t)

/-! ## Groups, delivery and dispatch -/

/-- GROUP SETUP from the ADMIN session: the group's delay and interval are replaced, the members stay, the reply is OK (R48). -/
def Obligations.GroupSetupRequest : Prop :=
  ∀ (s : State) (p : Port) (seq a : Byte) (payload : List Byte) (g : Group) (delay interval : Nat),
    Ready s p seq → isAdmin s p → decodeRequest typeGroupSetup payload = .ok (.groupSetup g delay interval) →
    ∃ t : State, exec (.groupSetup p seq a payload) s = .next t ∧
      Answered s t p seq a (replyOn s p typeGroupSetup seq .ok .none) ∧
      NothingElse { s with groups := s.groups.set g.val { s.groups[g] with delay := delay, interval := interval } } t p

/-- JOIN: a member is refused ALREADY_MEMBER and keeps its mode; else the port becomes a member in the mode named, a LATCHED join arms the group, either withdraws a
dissolved entry, and the reply is OK (R49, R50). LEAVE: a port that is no member is refused NOT_MEMBER; else its entry is removed, the group leaves its armed and
changed sets, the lamps of a group so left without members go OFF, FOLLOW lamps and the lamps' groups staying, and the reply is OK (R52, R56, R107). -/
def Obligations.JoinAndLeaveRequests : Prop :=
  (∀ (s : State) (p : Port) (seq a : Byte) (payload : List Byte) (g : Group) (m : Mode),
    Ready s p seq → decodeRequest typeJoin payload = .ok (.join g m) →
    ∃ t : State, exec (.join p seq a payload) s = .next t ∧
      ((memberMode s g p).isSome = true →
        Answered s t p seq a (replyOn s p typeJoin seq .alreadyMember .none) ∧ NothingElse s t p) ∧
      (memberMode s g p = none →
        Answered s t p seq a (replyOn s p typeJoin seq .ok .none) ∧
        SamePanel { s with groups := s.groups.set g.val { s.groups[g] with members := s.groups[g].members.set p (some m) } } t ∧
        OtherPortsKept s t p ∧ t.mgr = s.mgr ∧
        Delivered s t p fun d =>
          { d with
            armed := if m = .latched then addToSet d.armed g else d.armed
            dissolved := removeFromSet d.dissolved g })) ∧
  ∀ (s : State) (p : Port) (seq a : Byte) (payload : List Byte) (g : Group),
    Ready s p seq → decodeRequest typeLeave payload = .ok (.leave g) →
    ∃ t : State, exec (.leave p seq a payload) s = .next t ∧
      (memberMode s g p = none →
        Answered s t p seq a (replyOn s p typeLeave seq .notMember .none) ∧ NothingElse s t p) ∧
      ((memberMode s g p).isSome = true →
        Answered s t p seq a (replyOn s p typeLeave seq .ok .none) ∧
        t.groups = s.groups.set g.val { s.groups[g] with members := s.groups[g].members.set p none } ∧
        (∀ l : Lamp,
          t.lamps[l] = if s.lamps[l].group = some g ∧ NoMembers t g then s.lamps[l].darkened else s.lamps[l]) ∧
        t.scan = s.scan ∧ t.keys = s.keys ∧ t.disp = s.disp ∧ t.pins = s.pins ∧ t.pending = s.pending ∧ t.mgr = s.mgr ∧ OtherPortsKept s t p ∧
        Delivered s t p fun d => { d with armed := removeFromSet d.armed g, changed := removeFromSet d.changed g })

/-- DISSOLVE from the ADMIN session: every member is removed; each former member's group leaves its armed and changed sets and joins its dissolved
set; the lamps of a group that had members are blanked; the reply is OK with the number removed (R54, R55, R56, R107). -/
def Obligations.DissolveRequest : Prop :=
  ∀ (s : State) (p : Port) (seq a : Byte) (payload : List Byte) (g : Group),
    Ready s p seq → isAdmin s p → MembersSound s → decodeRequest typeDissolve payload = .ok (.dissolve g) →
    let change : Delivery → Delivery := fun d =>
      { d with armed := removeFromSet d.armed g, changed := removeFromSet d.changed g, dissolved := addToSet d.dissolved g }
    let one : Port → Nat := fun q => if (memberMode s g q).isSome = true then 1 else 0
    let count := one .p0 + one .p1 + one .p2
    ∃ t : State, exec (.dissolve p seq a payload) s = .next t ∧
      Answered s t p seq a (replyOn s p typeDissolve seq .ok (.removed count)) ∧
      t.groups = s.groups.set g.val { s.groups[g] with members := PerPort.all none } ∧
      (∀ l : Lamp,
        t.lamps[l] = if s.lamps[l].group = some g ∧ count ≠ 0 then s.lamps[l].darkened else s.lamps[l]) ∧
      t.scan = s.scan ∧ t.keys = s.keys ∧ t.disp = s.disp ∧ t.pins = s.pins ∧ t.pending = s.pending ∧ t.mgr = s.mgr ∧
      Delivered s t p (if (memberMode s g p).isSome = true then change else id) ∧
      ∀ q : Port, q ≠ p → if (memberMode s g q).isSome = true then PostedTo s t q change else PortKept s t q

/-- GRANT: 0 takes every credit away, any other number is added up to 127; the reply is OK with the count after the GRANT; queue, loss count and
notice set stay but for a composition (R91, R140). -/
def Obligations.GrantRequest : Prop :=
  ∀ (s : State) (p : Port) (seq a : Byte) (payload : List Byte) (n : Nat),
    Ready s p seq → decodeRequest typeGrant payload = .ok (.grant n) →
    let change : Delivery → Delivery := fun d => { d with credits := if n = 0 then 0 else min 127 (d.credits + n) }
    ∃ (t : State) (d : Delivery), exec (.grant p seq a payload) s = .next t ∧
      ComposedFrom s (s.delivery.get p) d ∧ ComposedFrom t (change d) (t.delivery.get p) ∧
      Answered s t p seq a (replyOn s p typeGrant seq .ok (.credits (change d).credits)) ∧
      (lineIdle p s = false → d = s.delivery.get p ∧ t.delivery.get p = change d) ∧
      SamePanel s t ∧ OtherPortsKept s t p ∧ t.mgr = s.mgr

/-- What a Delivery Unit makes of an event record, a REPORT's composition and a NOTICE's composition: the record is appended or, at 64, counted as
lost up to 255; a composition takes at most 8 records and at most the credits, spends one credit each, and places a LOSS record with the count of
losses; a NOTICE empties the changed and dissolved sets and the scan state entry and leaves the armed set, the queue and the credits (R74, R82, R83,
R86, R87, R88). -/
def Obligations.DeliveryUnitEvents : Prop :=
  ∀ (d : Delivery) (r : EventRec) (number frame : Word16),
    (d.queue.length < 64 → d.takeRecord r = { d with queue := d.queue ++ [r] }) ∧
    (64 ≤ d.queue.length → d.takeRecord r = { d with loss := min 255 (d.loss + 1) }) ∧
    (d.reportEligible = true ↔ 1 ≤ d.credits ∧ d.queue ≠ []) ∧
    (d.noticeEligible = true ↔ d.changed ≠ 0 ∨ d.dissolved ≠ 0 ∨ d.scanEntry ≠ none) ∧
    d.reportSize = min 8 (min d.credits d.queue.length) ∧
    d.afterReport number frame =
      { d with
        queue := if d.loss = 0 then d.queue.drop d.reportSize else d.queue.drop d.reportSize ++ [.loss number frame d.loss]
        credits := d.credits - d.reportSize
        loss := 0 } ∧
    d.afterNotice = { d with changed := 0, dissolved := 0, scanEntry := none }

/-- A changed post for a group: an armed group leaves the armed set and joins the changed set; a group not armed is left alone (R68). -/
def Obligations.ChangedPost : Prop :=
  ∀ (d : Delivery) (g : Group),
    (inSet d.armed g = true →
      (∀ g' : Group,
        inSet (d.takeChanged g).armed g' = (inSet d.armed g' && !decide (g' = g)) ∧
        inSet (d.takeChanged g).changed g' = (inSet d.changed g' || decide (g' = g))) ∧
      d.takeChanged g = { d with armed := (d.takeChanged g).armed, changed := (d.takeChanged g).changed }) ∧
    (inSet d.armed g = false → d.takeChanged g = d)

/-- The routing of the oldest transition waiting: each STREAM member's Delivery Unit takes the record, each LATCHED member's takes a changed but for a REPEAT, and every
other port stands; a transition without a group is dropped (R62, R63, R65, R67). That the command changes nothing with none waiting is the model's choice (log 4).
The second part is said where nothing waits for the Dispatcher to be done; HaltEndsWhenRouted, LastRoutingTakesWhatWaited and WaitingRequests say what else
then follows (log 7). -/
def Obligations.RouteTransition : Prop :=
  (∀ s : State, s.disp.waiting = [] → Settled s → exec .routeTransition s = .next s) ∧
  ∀ (s : State) (tr : Transition) (rest : List Transition),
    s.disp.waiting = tr :: rest → Settled s →
    (rest ≠ [] ∨
      (OnlySnapshotsWait s (fun _ => True) ∧ s.scan.phase ≠ .imageWaiting ∧ s.scan.phase ≠ .haltWaiting ∧ s.scan.phase ≠ .haltRouting)) →
    ∃ t : State, exec .routeTransition s = .next t ∧ Routed s t tr rest

/-- SNAPSHOT, with no earlier SNAPSHOT of the port waiting for its read: a USER session that is no member is refused NOT_MEMBER; else a LATCHED member
is armed, and the read is handed to the Key Table, the reply place staying held (R76, R77, R78, R81). -/
def Obligations.SnapshotRequest : Prop :=
  ∀ (s : State) (p : Port) (seq a : Byte) (payload : List Byte) (g : Group),
    Ready s p seq → s.disp.snapshots.get p = none → decodeRequest typeSnapshot payload = .ok (.snapshot g) →
    ∃ t : State, exec (.snapshot p seq a payload) s = .next t ∧
      (¬isAdmin s p → memberMode s g p = none →
        Answered s t p seq a (replyOn s p typeSnapshot seq .notMember .none) ∧ NothingElse s t p) ∧
      ((isAdmin s p ∨ (memberMode s g p).isSome = true) →
        AcceptedOn s t p seq a ∧
        t.disp = { s.disp with
          snapshots := s.disp.snapshots.set p
            (some { req := { port := p, session := (sessionOf s p).identity.getD 0, typ := typeSnapshot, seq := seq, payload := payload }
                    group := g }) } ∧
        t.scan = s.scan ∧ t.keys = s.keys ∧ t.groups = s.groups ∧ t.lamps = s.lamps ∧ t.mgr = s.mgr ∧ t.pins = s.pins ∧ t.pending = s.pending ∧
        OtherPortsKept s t p ∧
        Delivered s t p
          (if memberMode s g p = some .latched then
            fun d => { d with changed := removeFromSet d.changed g, armed := addToSet d.armed g }
          else id))

/-- The read of a SNAPSHOT in flight: the reply OK carries the keys of the group that are DOWN or RELEASING, STUCK, and SUSPECT, with the transition counter of that
moment and the frame number of the last image taken, which is one behind the scanner's while a completed frame's image waits (log 29); the read changes no key
record. A read for a session that has ended leaves no reply (R43, R78, R79). A MAP KEYS or a scanner request of the port that waits goes on waiting. That the
command changes nothing with no SNAPSHOT in flight is the model's choice (log 4). And a later SNAPSHOT of the port that waited for this read is then taken in the same
step: armed and in flight, or refused NOT_MEMBER, its reply behind the read's (R76, R77, R81; log 7). -/
def Obligations.SnapshotRead : Prop :=
  (∀ (s : State) (p : Port), s.disp.snapshots.get p = none → Settled s → exec (.snapshotRead p) s = .next s) ∧
  (∀ (s : State) (p : Port) (x : SnapshotInFlight),
    s.disp.snapshots.get p = some x → x.req.port = p → Settled s →
    (∀ (h : Handed) (g : Group), s.mgr.handed.get p = some h → h.ask ≠ .snapshot g) →
    ∃ t : State, exec (.snapshotRead p) s = .next t ∧
      t.disp = { s.disp with snapshots := s.disp.snapshots.set p none } ∧
      t.scan = s.scan ∧ t.keys = s.keys ∧ t.groups = s.groups ∧ t.lamps = s.lamps ∧ t.mgr = s.mgr ∧ t.pins = s.pins ∧ t.pending = s.pending ∧
      OtherPortsKept s t p ∧
      (isLive s p x.req.session = false → PortKept s t p) ∧
      (isLive s p x.req.session = true → 0 < (s.link.get p).held →
        t.delivery.get p = s.delivery.get p ∧
        ∃ r : Reply, SnapshotReadReply s x r ∧ Replied t p r ∧
          ServedIn t { s.link.get p with held := (s.link.get p).held - 1, replies := (s.link.get p).replies ++ [r] } (t.link.get p)
            (s.delivery.get p) (t.delivery.get p))) ∧
  ∀ (s : State) (p : Port) (x : SnapshotInFlight) (r : Request) (g : Group),
    s.disp.snapshots.get p = some x → x.req.port = p → Settled s → s.mgr.handed.get p = some { req := r, ask := .snapshot g } → r.port = p →
    s.mgr.inbox.get p = [] → isLive s p r.session = true → 2 ≤ (s.link.get p).held →
    let l := s.link.get p
    let refused : Reply := { session := r.session, typ := r.typ, seq := r.seq, status := .notMember, data := .none }
    ∃ (t : State) (read : List Reply), exec (.snapshotRead p) s = .next t ∧ t.mgr = { s.mgr with handed := s.mgr.handed.set p none } ∧
      t.scan = s.scan ∧ t.keys = s.keys ∧ t.groups = s.groups ∧ t.lamps = s.lamps ∧ OtherPortsKept s t p ∧
      (isLive s p x.req.session = false → read = []) ∧
      (isLive s p x.req.session = true → ∃ y : Reply, read = [y] ∧ SnapshotReadReply s x y ∧ Replied t p y) ∧
      ((isAdmin s p ∨ (memberMode s g p).isSome = true) →
        t.disp = { s.disp with snapshots := s.disp.snapshots.set p (some { req := r, group := g }) } ∧
        (t.link.get p).held = l.held - read.length ∧
        (lineIdle p s = false → t.link.get p = { l with held := l.held - read.length, replies := l.replies ++ read }) ∧
        ∃ d : Delivery, ComposedFrom s (s.delivery.get p) d ∧
          ComposedFrom s
            (if memberMode s g p = some .latched then { d with changed := removeFromSet d.changed g, armed := addToSet d.armed g } else d)
            (t.delivery.get p)) ∧
      (¬isAdmin s p → memberMode s g p = none →
        t.disp = { s.disp with snapshots := s.disp.snapshots.set p none } ∧ Replied t p refused ∧
        (t.link.get p).held = l.held - (read.length + 1) ∧
        (lineIdle p s = false → t.link.get p = { l with held := l.held - (read.length + 1), replies := l.replies ++ read ++ [refused] }))

/-! ## Lamps and the key map -/

/-- MAP LAMPS from the ADMIN session: the entries in list order, each setting the lamp's group, and FOLLOW of the key it carries or OFF; then OK (R102). -/
def Obligations.MapLampsRequest : Prop :=
  ∀ (s : State) (p : Port) (seq a : Byte) (payload : List Byte) (es : List (Lamp × Option Group × Option Key)),
    Ready s p seq → isAdmin s p → decodeRequest typeMapLamps payload = .ok (.mapLamps es) →
    ∃ t : State, exec (.mapLamps p seq a payload) s = .next t ∧
      Answered s t p seq a (replyOn s p typeMapLamps seq .ok .none) ∧
      NothingElse { s with lamps := t.lamps } t p ∧
      ∀ l : Lamp,
        t.lamps[l] =
          match es.reverse.find? fun e => e.1 == l with
          | some e => { group := e.2.1, mode := match e.2.2 with | some k => .follow k | none => .switched .off }
          | none => s.lamps[l]

/-- LAMPS: the first entry, in list order, whose lamp is locked to the port or in FOLLOW refuses the whole request with its status; else the entries
are applied in order, the groups stay, the reply is OK, and one lit demand is signalled when a lamp named then is ON or blinking (R104, R105, R108;
log 10). -/
def Obligations.LampsRequest : Prop :=
  ∀ (s : State) (p : Port) (seq a : Byte) (payload : List Byte) (es : List (Lamp × SwitchMode)),
    Ready s p seq → decodeRequest typeLamps payload = .ok (.lamps es) →
    let open_ : Lamp → Prop := fun l =>
      (∃ g : Group, s.lamps[l].group = some g ∧ (memberMode s g p).isSome = true) ∨ (s.lamps[l].group = none ∧ isAdmin s p)
    let follows : Lamp → Prop := fun l => ∃ k : Key, s.lamps[l].mode = .follow k
    ∃ t : State, exec (.lamps p seq a payload) s = .next t ∧
      (∀ (before after : List (Lamp × SwitchMode)) (e : Lamp × SwitchMode),
        es = before ++ e :: after → (∀ b ∈ before, open_ b.1 ∧ ¬follows b.1) →
        (¬open_ e.1 → Answered s t p seq a (replyOn s p typeLamps seq .lampLocked .none) ∧ NothingElse s t p) ∧
        (open_ e.1 → follows e.1 → Answered s t p seq a (replyOn s p typeLamps seq .followLamp .none) ∧ NothingElse s t p)) ∧
      ((∀ e ∈ es, open_ e.1 ∧ ¬follows e.1) →
        Answered s t p seq a (replyOn s p typeLamps seq .ok .none) ∧
        (∀ l : Lamp,
          t.lamps[l] =
            match es.reverse.find? fun e => e.1 == l with
            | some e => { s.lamps[l] with mode := .switched e.2 }
            | none => s.lamps[l]) ∧
        NothingElse
          { s with
            lamps := t.lamps
            scan := { s.scan with
              litDemands := if ∃ e ∈ es, t.lamps[e.1].mode.lit = true then s.scan.litDemands + 1 else s.scan.litDemands } } t p)

/-- MAP KEYS from the ADMIN session, with no transition waiting: the entries in list order, each as MapKeysEntry says, then OK with the transition
counter (R38). -/
def Obligations.MapKeysRequest : Prop :=
  ∀ (s : State) (p : Port) (seq a : Byte) (payload : List Byte) (es : List (Key × Option Group)),
    Ready s p seq → isAdmin s p → s.disp.waiting = [] → decodeRequest typeMapKeys payload = .ok (.mapKeys es) →
    let u := es.foldl remapKey s
    ∃ t : State, exec (.mapKeys p seq a payload) s = .next t ∧
      Answered s t p seq a (replyOn s p typeMapKeys seq .ok (.transition u.keys.transition)) ∧
      SamePanel { s with keys := u.keys, disp := u.disp } t ∧ OtherPortsKept s t p ∧ t.mgr = s.mgr ∧ Delivered s t p id

/-- A checked request whose owner cannot take it yet is handed to it and waits: a MAP KEYS while a transition waits for the Dispatcher, a SNAPSHOT while the read of
the port's earlier one is outstanding, a scanner request while the image waits for the Key Table and no HALT is in flight; and a request accepted while an earlier one
of the port still waits so stands behind it at the Session Manager, neither checked nor answered (R38, R62, R81, R118, R151; log 7, 8). The routing of the last
transition waiting posts as ever and lets a MAP KEYS that waited for it be taken, in either order with the stages of a scan frame's completion that wait beside it
(R41; log 6). (A waiting SNAPSHOT is taken in SnapshotRead, a waiting scanner request in LastRoutingTakesWhatWaited.) -/
def Obligations.WaitingRequests : Prop :=
  (∀ (s : State) (p : Port) (i : Instr) (f : RxFrame) (ask : Ask),
     Ready s p f.seq → i.frame? = some (p, f) → decodeRequest f.typ f.payload = .ok ask → (ask.adminOnly = true → isAdmin s p) →
     ((∃ es, ask = .mapKeys es) ∧ s.disp.waiting ≠ [] ∨
       (∃ g, ask = .snapshot g) ∧ s.disp.snapshots.get p ≠ none ∨
       ((∃ su, ask = .scanSetup su) ∨ ∃ op, ask = .scanControl op) ∧ s.scan.phase = .imageWaiting ∧ s.scan.halt = none) →
     ∃ t : State, exec i s = .next t ∧ AcceptedOn s t p f.seq f.ack ∧
       NothingElse { s with mgr := { s.mgr with handed := s.mgr.handed.set p (some { req := requestOf s p f, ask := ask }) } } t p) ∧
  (∀ (s : State) (p : Port) (i : Instr) (f : RxFrame) (h : Handed),
     Settled s → isOpen s p = true → f.seq = (s.link.get p).lastAccepted + 1 → (s.link.get p).places < 4 → s.mgr.handed.get p = some h →
     ackEndsReset p f.ack s = false → i.frame? = some (p, f) → f.typ ≠ typeAck → f.typ ≠ typeOpen →
     ∃ t : State, exec i s = .next t ∧ AcceptedOn s t p f.seq f.ack ∧
       NothingElse
         { s with
           mgr := { s.mgr with inbox := s.mgr.inbox.set p (s.mgr.inbox.get p ++ [{ req := requestOf s p f, passed := false }]) } } t p) ∧
  (∀ (s : State) (p : Port) (tr : Transition) (r : Request) (es : List (Key × Option Group)),
     s.disp.waiting = [tr] → Settled s → PanelSound s → s.mgr.handed.get p = some { req := r, ask := .mapKeys es } → r.port = p →
     OnlySnapshotsWait s (· ≠ p) → s.mgr.inbox.get p = [] →
     ∃ u t : State, exec .routeTransition s = .next t ∧ Routed s u tr [] ∧ FollowsWithMapKeys p r es u t)

/-! ## Sessions -/

/-- An OPEN that is no duplicate, meets no reset in flight, decodes, and, for ADMIN, meets no other holder of the claim: the earlier session ends with
its memberships and its Delivery Unit's contents; the new one opens under a new identity with the role, tag and RTO carried, the Link Unit is reset,
and the reply OK with the part identity is its first sequenced frame, SEQ 0 (R117, R141, R143, R145; log 14). -/
def Obligations.OpenBegins : Prop :=
  ∀ (s : State) (p : Port) (seq a : Byte) (payload : List Byte) (o : OpenAsk),
    Settled s → SessionsSound s → MembersSound s → s.mgr.resetInFlight = none → duplicateOpen s p payload = false →
    decodeOpen payload = .ok o → (o.role = .admin → ∀ q : Port, q ≠ p → s.mgr.adminClaim ≠ some q) →
    let r : Reply :=
      { session := nextIdentity (sessionOf s p), typ := typeOpen, seq := seq, status := .ok, data := .identity }
    ∃ t : State, exec (.openSession p seq a payload) s = .next t ∧
      sessionOf t p = { state := .open, role := some o.role, tag := some o.tag, identity := some (nextIdentity (sessionOf s p)) } ∧
      (∀ n : Nat, (sessionOf s p).identity = some n → n < nextIdentity (sessionOf s p)) ∧
      (∀ q : Port, q ≠ p → sessionOf t q = sessionOf s q) ∧
      t.mgr.adminClaim = (if o.role = .admin then some p else if s.mgr.adminClaim = some p then none else s.mgr.adminClaim) ∧
      t.mgr.resetInFlight = none ∧ t.mgr.handed = s.mgr.handed ∧
      PortRemoved s t p ∧ t.delivery.get p = Delivery.empty ∧ OtherPortsKept s t p ∧
      t.scan = s.scan ∧ t.keys = s.keys ∧ t.disp = s.disp ∧ t.pins = s.pins ∧ t.pending = s.pending ∧
      (t.link.get p).framer = (s.link.get p).framer ∧ (t.link.get p).lastAccepted = seq ∧ (t.link.get p).openMark = true ∧
      (t.link.get p).held = 0 ∧ (t.link.get p).rto = o.rto * 10 ∧ (t.link.get p).retry = 0 ∧ (t.link.get p).burst = none ∧
      (t.link.get p).noSession = false ∧ (t.link.get p).openRefused = none ∧ (t.link.get p).replyRun = 0 ∧
      (lineIdle p s = false →
        (t.link.get p).line = (s.link.get p).line ∧ (t.link.get p).replies = [r] ∧ (t.link.get p).resend = [] ∧
          (t.link.get p).nextSeq = 0 ∧ (t.link.get p).retransmit.running = false ∧ (t.link.get p).ackOwed = true) ∧
      (lineIdle p s = true →
        (t.link.get p).line = .sending { seq := 0, ack := seq, body := .reply r } 18 ∧ (t.link.get p).replies = [] ∧
          (t.link.get p).resend = [{ seq := 0, body := .reply r }] ∧ (t.link.get p).nextSeq = 1 ∧
          (t.link.get p).retransmit.armed = some (o.rto * 10) ∧ (t.link.get p).ackOwed = false)

/-- An OPEN that is refused: RESETTING while a reset is in flight on another port, else the status of its decode, else ADMIN_HELD. An earlier session
ends; the status goes out as OPEN REFUSED, at once on an IDLE line; no reply is produced and the claim and the reset in flight of other ports stand. A
duplicate OPEN is acknowledged and nothing else. An OPEN over the session that holds the reset in flight is consumed by the full reset (R117, R143,
R144, R154). -/
def Obligations.OpenNotTaken : Prop :=
  (∀ (s : State) (p : Port) (seq a : Byte) (payload : List Byte) (st : Status),
    Settled s → SessionsSound s → MembersSound s → duplicateOpen s p payload = false →
    (∀ n : Nat, s.mgr.resetInFlight ≠ some (p, n)) →
    st = (if s.mgr.resetInFlight.isSome = true then Status.resetting
      else match decodeOpen payload with
        | .refused x => x
        | .ok _ => .adminHeld) →
    (s.mgr.resetInFlight.isSome = true ∨
      (∀ o : OpenAsk, decodeOpen payload = .ok o → o.role = .admin ∧ ∃ q : Port, q ≠ p ∧ s.mgr.adminClaim = some q)) →
    ∃ t : State, exec (.openSession p seq a payload) s = .next t ∧
      (sessionOf t p).state = .closed ∧ (sessionOf t p).role = none ∧ (sessionOf t p).tag = none ∧
      (∀ q : Port, q ≠ p → sessionOf t q = sessionOf s q) ∧
      t.mgr.adminClaim = (if s.mgr.adminClaim = some p then none else s.mgr.adminClaim) ∧ t.mgr.resetInFlight = s.mgr.resetInFlight ∧
      PortRemoved s t p ∧ t.delivery.get p = Delivery.empty ∧ OtherPortsKept s t p ∧
      t.scan = s.scan ∧ t.keys = s.keys ∧ t.disp = s.disp ∧ t.pins = s.pins ∧ t.pending = s.pending ∧
      (t.link.get p).lastAccepted = seq ∧ (t.link.get p).openMark = true ∧ (t.link.get p).held = 0 ∧ (t.link.get p).replies = [] ∧
      (t.link.get p).resend = [] ∧ (t.link.get p).nextSeq = 0 ∧
      (lineIdle p s = false → (t.link.get p).line = (s.link.get p).line ∧ (t.link.get p).openRefused = some st) ∧
      (lineIdle p s = true →
        (t.link.get p).line = .sending { seq := 0, ack := seq, body := .openRefused st } 8 ∧ (t.link.get p).openRefused = none)) ∧
  (∀ (s : State) (p : Port) (seq a : Byte) (payload : List Byte),
    Settled s → ackEndsReset p a s = false → duplicateOpen s p payload = true →
    ∃ t : State, exec (.openSession p seq a payload) s = .next t ∧ SamePanel s t ∧ OtherPortsKept s t p ∧ t.mgr = s.mgr ∧
      ServedIn t ((s.link.get p).readAck a).oweAck (t.link.get p) (s.delivery.get p) (t.delivery.get p)) ∧
  ∀ (s : State) (p : Port) (seq a : Byte) (payload : List Byte) (n : Nat),
    isOpen s p = true → s.mgr.resetInFlight = some (p, n) → duplicateOpen s p payload = false →
    exec (.openSession p seq a payload) s =
      .next { State.reset with pins := { straps := s.pins.straps, bitRate := s.pins.straps }, races := s.races, pending := s.pending }

/-- CLOSE: the reply OK, then the teardown into CLOSING as one event; places of replies not yet produced are released, replies and frames waiting stay
(R129, R146, R148). -/
def Obligations.CloseRequest : Prop :=
  ∀ (s : State) (p : Port) (seq a : Byte),
    Ready s p seq →
    let r := replyOn s p typeClose seq .ok .none
    ∃ t : State, exec (.close p seq a []) s = .next t ∧
      SessionEnded s t p .closing ∧ PortRemoved s t p ∧ t.delivery.get p = Delivery.empty ∧ OtherPortsKept s t p ∧
      t.scan = s.scan ∧ t.keys = s.keys ∧ t.disp = s.disp ∧ t.pins = s.pins ∧ t.pending = s.pending ∧
      (r ∈ (t.link.get p).replies ∨ ∃ f ∈ (t.link.get p).resend, f.body = .reply r) ∧
      (t.link.get p).lastAccepted = seq ∧ (t.link.get p).held = 0 ∧
      (lineIdle p s = false → t.link.get p = { (s.link.get p).afterAnswer seq a r with held := 0 })

/-- STATUS: the reply OK with the scan state, the frame number, the transition counter, the port's credit count, queue length, loss count and resend
list length, its role and the admin port, read as they stand when the Session Manager takes the request; nothing changes (R152). -/
def Obligations.StatusRequest : Prop :=
  ∀ (s : State) (p : Port) (seq a : Byte) (role : Role),
    Ready s p seq → (sessionOf s p).role = some role →
    ∃ (t : State) (d : Delivery) (n : Nat), exec (.status p seq a []) s = .next t ∧
      ComposedFrom s (s.delivery.get p) d ∧
      (n = ((s.link.get p).readAck a).resend.length ∨ n = ((s.link.get p).readAck a).resend.length + 1) ∧
      (lineIdle p s = false → d = s.delivery.get p ∧ n = ((s.link.get p).readAck a).resend.length) ∧
      Answered s t p seq a
        (replyOn s p typeStatus seq .ok
          (.status s.scan.state s.scan.frameNumber s.keys.transition d.credits d.queue.length d.loss n role s.mgr.adminClaim)) ∧
      NothingElse s t p

/-- RESET from the ADMIN session: the reply OK, and the reset in flight records the port and its session; nothing else changes yet, but that the requests of other
ports that wait at the Session Manager, accepted before the RESET, are marked to pass it (R153). As the model reads R150 and R153 (log 30), such a request is then
answered by its owner, and one accepted after the RESET with RESETTING: so a GRANT that waited behind its port's second SNAPSHOT and is taken after the read. -/
def Obligations.ResetRequest : Prop :=
  (∀ (s : State) (p : Port) (seq a : Byte),
    Ready s p seq → isAdmin s p →
    ∃ t : State, exec (.reset p seq a []) s = .next t ∧
      Answered s t p seq a (replyOn s p typeReset seq .ok .none) ∧
      (∀ q : Port, t.mgr.inbox.get q = if q = p then [] else (s.mgr.inbox.get q).map fun w => { w with passed := true }) ∧
      NothingElse
        { s with mgr := { s.mgr with resetInFlight := some (p, (sessionOf s p).identity.getD 0), inbox := t.mgr.inbox } } t p) ∧
  ∀ (s : State) (p : Port) (x : SnapshotInFlight) (r : Request) (g : Group) (w : Queued) (n : Nat),
    s.disp.snapshots.get p = some x → x.req.port = p → Settled s → s.mgr.handed.get p = some { req := r, ask := .snapshot g } → r.port = p →
    s.mgr.inbox.get p = [w] → w.req.port = p → decodeRequest w.req.typ w.req.payload = .ok (.grant n) → isLive s p r.session = true →
    isLive s p w.req.session = true → 3 ≤ (s.link.get p).held →
    let answer : Status → ReplyData → Reply := fun st data =>
      { session := w.req.session, typ := w.req.typ, seq := w.req.seq, status := st, data := data }
    ∃ t : State, exec (.snapshotRead p) s = .next t ∧
      t.mgr = { s.mgr with handed := s.mgr.handed.set p none, inbox := s.mgr.inbox.set p [] } ∧
      (s.mgr.resetInFlight.isSome = true → w.passed = false →
        Replied t p (answer .resetting .none) ∧ (lineIdle p s = false → (t.delivery.get p).credits = (s.delivery.get p).credits)) ∧
      (s.mgr.resetInFlight = none ∨ w.passed = true →
        ∃ c : Nat, Replied t p (answer .ok (.credits c)) ∧ (n = 0 → c = 0) ∧
          (n ≠ 0 → lineIdle p s = false → c = min 127 ((s.delivery.get p).credits + n)) ∧
          (lineIdle p s = false → (t.delivery.get p).credits = c))

/-- The three checks of R150. While a reset is in flight every request accepted on any port, whatever its TYPE and payload, is answered RESETTING, unless its ACK byte
ends the reset (R153); else one that decode refuses is answered with decode's status, UNKNOWN_TYPE for a TYPE the part does not know; else one that needs the ADMIN
role, from a session without it, is answered NOT_ADMIN. In each case it has no other effect (R118, R161). -/
def Obligations.RefusedAtChecks : Prop :=
  (∀ (s : State) (p : Port) (typ seq a : Byte) (payload : List Byte),
     Ready s p seq → (0x09 ≤ typ.toNat ∧ typ.toNat ≤ 0x0F ∨ 0x17 ≤ typ.toNat) →
     ∃ t : State, exec (.unknownTypeRequest p typ seq a payload) s = .next t ∧
       Answered s t p seq a (replyOn s p typ seq .unknownType .none) ∧ NothingElse s t p) ∧
  (∀ (s : State) (p : Port) (i : Instr) (f : RxFrame),
     Ready s p f.seq → i.frame? = some (p, f) → f.typ ≠ typeAck → f.typ ≠ typeOpen →
     ∃ t : State, exec i s = .next t ∧
       (∀ st : Status, decodeRequest f.typ f.payload = .refused st →
         Answered s t p f.seq f.ack (replyOn s p f.typ f.seq st .none) ∧ NothingElse s t p) ∧
       ∀ ask : Ask, decodeRequest f.typ f.payload = .ok ask → ask.adminOnly = true → ¬isAdmin s p →
         Answered s t p f.seq f.ack (replyOn s p f.typ f.seq .notAdmin .none) ∧ NothingElse s t p) ∧
  (∀ (s : State) (p : Port) (i : Instr) (f : RxFrame),
    Accepting s p f.seq → s.mgr.resetInFlight.isSome = true → ackEndsReset p f.ack s = false → i.frame? = some (p, f) →
    f.typ ≠ typeAck → f.typ ≠ typeOpen →
    ∃ t : State, exec i s = .next t ∧ Answered s t p f.seq f.ack (replyOn s p f.typ f.seq .resetting .none) ∧ NothingElse s t p)

/-! ## Links -/

/-- An ACK frame is read for its ACK byte alone, its SEQ and payload ignored. Where that byte removes the RESET reply of the reset in flight, in this
frame or any other, the full reset follows and the rest of the frame is not taken; where it removes the CLOSE reply of a CLOSING session, the session
is CLOSED. And what an ACK byte does to the resend list, the retry count, the timer and a burst (R115, R116, R125, R146, R154; log 17, 26). -/
def Obligations.AckFrame : Prop :=
  ((∀ (s : State) (p : Port) (seq a : Byte) (payload : List Byte), Settled s → ackEndsReset p a s = false →
     ∃ t : State, exec (.ack p seq a payload) s = .next t ∧ SamePanel s t ∧ OtherPortsKept s t p ∧
       ServedIn t ((s.link.get p).readAck a) (t.link.get p) (s.delivery.get p) (t.delivery.get p) ∧
       (ackEndsClosing p a s = false → t.mgr = s.mgr) ∧
       (ackEndsClosing p a s = true →
         t.mgr = { s.mgr with sessions := s.mgr.sessions.set p { sessionOf s p with state := .closed } })) ∧
   ∀ (s : State) (p : Port) (i : Instr) (f : RxFrame), i.frame? = some (p, f) → ackEndsReset p f.ack s = true →
     exec i s =
       .next { State.reset with pins := { straps := s.pins.straps, bitRate := s.pins.straps }, races := s.races, pending := s.pending }) ∧
  (∀ (l : Link) (a : Byte),
     ((∀ f ∈ l.resend, f.seq ≠ a) → l.readAck a = l) ∧
     ∀ (before after : List SentFrame) (f : SentFrame), l.resend = before ++ f :: after → f.seq = a → (∀ b ∈ before, b.seq ≠ a) →
       (l.readAck a).resend = after ∧ (l.readAck a).retry = 0 ∧
       (after = [] → (l.readAck a).burst = none ∧ (l.readAck a).retransmit.running = false) ∧
       (after ≠ [] → l.burst = none → (l.readAck a).burst = none ∧ (l.readAck a).retransmit = l.retransmit.start l.rto) ∧
       (∀ n : Nat, after ≠ [] → l.burst = some n →
         (l.readAck a).burst = some (n - (before.length + 1)) ∧ (l.readAck a).retransmit = l.retransmit) ∧
       l.readAck a =
         { l with
           resend := (l.readAck a).resend, retry := (l.readAck a).retry, burst := (l.readAck a).burst, retransmit := (l.readAck a).retransmit })

/-- A request other than OPEN that is not accepted. In an OPEN session, with the next SEQ and 4 places taken, nothing but its ACK byte is read; one of
the 8 numbers up to the last accepted, or any other, is acknowledged and goes no further. In CLOSED it makes a NO SESSION pending, which an IDLE line
with no burst and no OPEN REFUSED pending sends at once; in CLOSING it is discarded silently; in both its ACK byte is read and its SEQ is not. Where that byte
itself ends CLOSING, the session is CLOSED before the request is judged, and it makes a NO SESSION pending, as the model reads R115 and R146 (log 26; R116, R118,
R127, R128, R134). -/
def Obligations.RequestsNotAccepted : Prop :=
  (∀ (s : State) (p : Port) (i : Instr) (f : RxFrame),
     Settled s → isOpen s p = true → ackEndsReset p f.ack s = false → i.frame? = some (p, f) → f.typ ≠ typeAck → f.typ ≠ typeOpen →
     let l := s.link.get p
     ∃ t : State, exec i s = .next t ∧
       ((f.seq = l.lastAccepted + 1 ∧ 4 ≤ l.replies.length + l.held) →
         ServedIn t (l.readAck f.ack) (t.link.get p) (s.delivery.get p) (t.delivery.get p) ∧ SamePanel s t ∧ OtherPortsKept s t p ∧ t.mgr = s.mgr) ∧
       (f.seq ≠ l.lastAccepted + 1 →
         ServedIn t (l.readAck f.ack).oweAck (t.link.get p) (s.delivery.get p) (t.delivery.get p) ∧ SamePanel s t ∧ OtherPortsKept s t p ∧
           t.mgr = s.mgr)) ∧
  (∀ (s : State) (p : Port) (i : Instr) (f : RxFrame),
     Settled s → ackEndsReset p f.ack s = false → i.frame? = some (p, f) → f.typ ≠ typeAck → f.typ ≠ typeOpen →
     let l := (s.link.get p).readAck f.ack
     ∃ t : State, exec i s = .next t ∧
       ((sessionOf s p).state = .closed ∨ ackEndsClosing p f.ack s = true →
         SamePanel s t ∧ OtherPortsKept s t p ∧
         (ackEndsClosing p f.ack s = false → t.mgr = s.mgr) ∧
         (ackEndsClosing p f.ack s = true →
           t.mgr = { s.mgr with sessions := s.mgr.sessions.set p { sessionOf s p with state := .closed } }) ∧
         ServedIn t { l with noSession := true } (t.link.get p) (s.delivery.get p) (t.delivery.get p) ∧
         (lineIdle p s = true → l.burst = none → l.openRefused = none →
           t.link.get p =
             { l with
               noSession := false, ackOwed := false, holdoff := l.holdoff.stop
               line := .sending { seq := 0, ack := l.lastAccepted, body := .noSession } 7 } ∧
             t.delivery.get p = s.delivery.get p)) ∧
       ((sessionOf s p).state = .closing → ackEndsClosing p f.ack s = false →
         SamePanel s t ∧ OtherPortsKept s t p ∧ t.mgr = s.mgr ∧ ServedIn t l (t.link.get p) (s.delivery.get p) (t.delivery.get p)))

/-- The retransmit timer expires. Below the limit the retry count goes up, the timer stops and a burst of the whole list begins, its oldest frame sent
at once on an IDLE line with the last accepted sequence in its ACK byte. At the fourth expiry the Link Unit gives everything up; an OPEN session is
lost, a CLOSING one is CLOSED, and a reset in flight on the port becomes the full reset. A stopped timer does not expire (R123, R124, R126, R146,
R147, R154; log 4). -/
def Obligations.RetransmitExpiry : Prop :=
  (∀ (s : State) (p : Port), (s.link.get p).retransmit.running = false → exec (.retransmitTimerExpiry p) s = .next s) ∧
  (∀ (s : State) (p : Port), Settled s → (s.link.get p).retransmit.running = true → (s.link.get p).retry + 1 < 4 →
    let l := s.link.get p
    let b : Link := { l with retransmit := l.retransmit.stop, retry := l.retry + 1, burst := some 0 }
    ∃ t : State, exec (.retransmitTimerExpiry p) s = .next t ∧ SamePanel s t ∧ OtherPortsKept s t p ∧ t.mgr = s.mgr ∧
      (lineIdle p s = false → t.link.get p = b ∧ t.delivery.get p = s.delivery.get p) ∧
      ∀ (f : SentFrame) (rest : List SentFrame), lineIdle p s = true → l.resend = f :: rest →
        t.delivery.get p = s.delivery.get p ∧
        t.link.get p =
          { b with
            burst := some 1, ackOwed := false, holdoff := l.holdoff.stop
            line := .sending { seq := f.seq, ack := l.lastAccepted, body := f.body } (f.body.payload.length + 7) }) ∧
  ∀ (s : State) (p : Port), Settled s → (s.link.get p).retransmit.running = true → 4 ≤ (s.link.get p).retry + 1 →
    let l := s.link.get p
    let gone : Link :=
      { l with
        replies := [], held := 0, resend := [], retransmit := l.retransmit.stop, retry := 0, burst := none, ackOwed := false
        holdoff := l.holdoff.stop, replyRun := 0 }
    ∃ t : State, exec (.retransmitTimerExpiry p) s = .next t ∧
      ((∃ n : Nat, s.mgr.resetInFlight = some (p, n)) →
        t = { State.reset with pins := { straps := s.pins.straps, bitRate := s.pins.straps }, races := s.races, pending := s.pending }) ∧
      ((∀ n : Nat, s.mgr.resetInFlight ≠ some (p, n)) → isOpen s p = true →
        SessionEnded s t p .closed ∧ PortRemoved s t p ∧ t.delivery.get p = Delivery.empty ∧
          ServedIn t gone (t.link.get p) Delivery.empty (t.delivery.get p) ∧
          OtherPortsKept s t p ∧ t.scan = s.scan ∧ t.keys = s.keys ∧ t.disp = s.disp ∧ t.pins = s.pins ∧ t.pending = s.pending) ∧
      ((∀ n : Nat, s.mgr.resetInFlight ≠ some (p, n)) → (sessionOf s p).state = .closing →
        t.mgr = { s.mgr with sessions := s.mgr.sessions.set p { sessionOf s p with state := .closed } } ∧ SamePanel s t ∧
          OtherPortsKept s t p ∧ ServedIn t gone (t.link.get p) (s.delivery.get p) (t.delivery.get p))

/-- The ack holdoff expires: it stops, and an ACK frame is due, sent at once on an IDLE line that has nothing of a higher rank; a stopped holdoff does
not expire. The end of a frame on the line frees it, a burst whose frames have all been sent ends and restarts the retransmit timer, and the next
frame is chosen on the units as they then stand; an IDLE line has no such end (R124, R127, R131, R133, R137; log 4, 22). -/
def Obligations.HoldoffAndFrameEnd : Prop :=
  (∀ (s : State) (p : Port), (s.link.get p).holdoff.running = false → exec (.ackHoldoffExpiry p) s = .next s) ∧
  (∀ (s : State) (p : Port), Settled s → (s.link.get p).holdoff.running = true →
    let l := s.link.get p
    ∃ t : State, exec (.ackHoldoffExpiry p) s = .next t ∧ SamePanel s t ∧ OtherPortsKept s t p ∧ t.mgr = s.mgr ∧
      t.delivery.get p = s.delivery.get p ∧
      (lineIdle p s = false → t.link.get p = { l with holdoff := l.holdoff.stop }) ∧
      (lineIdle p s = true → l.ackOwed = true →
        t.link.get p =
          { l with
            holdoff := l.holdoff.stop.stop, ackOwed := false
            line := .sending { seq := 0, ack := l.lastAccepted, body := .ack } 7 })) ∧
  (∀ (s : State) (p : Port), lineIdle p s = true → exec (.frameTransmitEnd p) s = .next s) ∧
  ∀ (s : State) (p : Port), lineIdle p s = false →
    let l := s.link.get p
    ∃ (t : State) (free : Link), exec (.frameTransmitEnd p) s = .next t ∧
      (l.burst = none → free = { l with line := .idle }) ∧
      (∀ n : Nat, l.burst = some n →
        free = if l.resend.length ≤ n then { l with line := .idle, burst := none, retransmit := l.retransmit.start l.rto }
          else { l with line := .idle }) ∧
      SamePanel s t ∧ OtherPortsKept s t p ∧ t.mgr = s.mgr ∧
      match choice s.keys.transition s.scan.frameNumber free (s.delivery.get p) with
      | some x => t.link.get p = x.1 ∧ t.delivery.get p = x.2
      | none => t.link.get p = free ∧ t.delivery.get p = s.delivery.get p

/-- A choice takes the first rank that holds: a burst's next frame; OPEN REFUSED; NO SESSION; a new sequenced frame while no burst is in progress and
the resend list holds fewer than 8; an ACK that is due. Which frame each rank gives, and what it leaves of the Link Unit (R132, R133, R134, R137). -/
def Obligations.ChoiceOrder : Prop :=
  ∀ (n m : Word16) (l : Link) (d : Delivery),
    (∀ (i : Nat) (f : SentFrame), l.burst = some i → l.resend[i]? = some f →
      choice n m l d = some (Link.send f.seq f.body { l with burst := some (i + 1) }, d)) ∧
    (rank1 l = none → ∀ st : Status, l.openRefused = some st →
      choice n m l d = some (Link.send 0 (.openRefused st) { l with openRefused := none }, d)) ∧
    (rank1 l = none → l.openRefused = none → l.noSession = true →
      choice n m l d = some (Link.send 0 .noSession { l with noSession := false }, d)) ∧
    (rank1 l = none → l.openRefused = none → l.noSession = false →
      ((l.burst ≠ none ∨ 8 ≤ l.resend.length ∨ newFrame? l.replyRun (!l.replies.isEmpty) d.noticeEligible d.reportEligible = none) →
        choice n m l d = if l.ackDue = true then some (Link.send 0 .ack l, d) else none) ∧
      (l.burst = none → l.resend.length < 8 →
        newFrame? l.replyRun (!l.replies.isEmpty) d.noticeEligible d.reportEligible ≠ none → choice n m l d = rank4 n m l d ∧ rank4 n m l d ≠ none)) ∧
    ∀ (seq : Byte) (b : Body),
      Link.send seq b l =
        { l with
          line := .sending { seq := seq, ack := l.lastAccepted, body := b } (b.payload.length + 7), ackOwed := false, holdoff := l.holdoff.stop }

/-- Which new sequenced frame is taken, and what it does: below 4 in a row a REPLY, else a NOTICE, else a REPORT; at 4 a NOTICE or REPORT that is
eligible first. The frame takes the next transmit sequence and joins the resend list, the retransmit timer starts on an empty list, and the
consecutive-reply counter follows R136 (R121, R122, R135, R136). -/
def Obligations.NewFrameOrder : Prop :=
  (∀ (run : Nat) (reply notice report : Bool),
    newFrame? run reply notice report =
      if 4 ≤ run ∧ notice = true then some .notice
      else if 4 ≤ run ∧ report = true then some .report
      else if reply = true then some .reply
      else if notice = true then some .notice
      else if report = true then some .report
      else none) ∧
  ∀ (n m : Word16) (l : Link) (d : Delivery), l.burst = none → l.resend.length < 8 →
    let sent : Body → Link → Link := fun b x =>
      { x with
        nextSeq := l.nextSeq + 1, resend := l.resend ++ [{ seq := l.nextSeq, body := b }]
        retransmit := if l.resend = [] then l.retransmit.start l.rto else l.retransmit
        line := .sending { seq := l.nextSeq, ack := l.lastAccepted, body := b } (b.payload.length + 7)
        ackOwed := false, holdoff := l.holdoff.stop }
    let next := newFrame? l.replyRun (!l.replies.isEmpty) d.noticeEligible d.reportEligible
    (∀ (r : Reply) (rest : List Reply), next = some .reply → l.replies = r :: rest →
      rank4 n m l d =
        some (sent (.reply r)
          { l with
            replies := rest
            replyRun := if d.noticeEligible || d.reportEligible then min 4 (l.replyRun + 1) else 0 }, d)) ∧
    (next = some .notice →
      rank4 n m l d = some (sent (.notice d.changed d.dissolved d.scanEntry) { l with replyRun := 0 }, d.afterNotice)) ∧
    (next = some .report →
      rank4 n m l d = some (sent (.report (d.queue.take d.reportSize)) { l with replyRun := 0 }, d.afterReport n m))

/-- One byte at the framer, while no frame waits to be taken again: what HUNT and COLLECT make of SYNC, of other bytes, of a LEN in and out of range
and of a framing fault; a byte that arrives behind a bad frame waits. The gap timer's expiry abandons the frame being collected. Nothing outside the
framer changes (R112, R113, R114; log 4, 15). -/
def Obligations.FramerByteAndGap : Prop :=
  (∀ (s : State) (p : Port) (b : Byte) (fault : Bool),
    let fr := framerOf s p
    let hunting : Framer := { fr with state := .hunt, buffer := [], gapRunning := false }
    let collecting : Framer := { fr with state := .collect, buffer := [], gapRunning := true }
    let after : Framer → Prop := fun x => exec (.arrivingByte p b fault) s = .next (setFramer p x s)
    (fr.holdsBadFrame = true → after { fr with backlog := fr.backlog ++ [{ value := b, fault := fault }] }) ∧
    (fr.state = .hunt → fault = true → after fr) ∧
    (fr.state = .hunt → fault = false → b ≠ 0xA7 → after hunting) ∧
    (fr.state = .hunt → fault = false → b = 0xA7 → after collecting) ∧
    (fr.state = .collect → fr.holdsBadFrame = false → fault = true → after hunting) ∧
    (fr.state = .collect → fr.buffer = [] → fault = false → (b.toNat < 3 ∨ 67 < b.toNat) → b ≠ 0xA7 → after hunting) ∧
    (fr.state = .collect → fr.buffer = [] → fault = false → b = 0xA7 → after collecting) ∧
    (fr.state = .collect → fr.buffer = [] → fault = false → 3 ≤ b.toNat → b.toNat ≤ 67 →
      after { fr with buffer := [b], gapRunning := true }) ∧
    ∀ (len : Byte) (rest : List Byte), fr.state = .collect → fr.buffer = len :: rest → fault = false → rest.length + 1 < len.toNat + 2 →
      after { fr with buffer := fr.buffer ++ [b], gapRunning := true }) ∧
  (∀ (s : State) (p : Port) (b len : Byte) (rest : List Byte),
    let fr := framerOf s p
    fr.state = .collect → fr.buffer = len :: rest → rest.length + 1 = len.toNat + 2 → goodFrame? (fr.buffer ++ [b]) = none →
    exec (.arrivingByte p b false) s = .next (setFramer p { fr with buffer := fr.buffer ++ [b], gapRunning := false } s)) ∧
  (∀ (s : State) (p : Port), (framerOf s p).gapRunning = true →
    exec (.gapTimerExpiry p) s = .next (setFramer p { framerOf s p with state := .hunt, buffer := [], gapRunning := false } s)) ∧
  ∀ (s : State) (p : Port), (framerOf s p).gapRunning = false → exec (.gapTimerExpiry p) s = .next s

/-- A whole frame in the buffer whose CRC does not match is discarded and its bytes, with those that waited behind it, are taken again from the LEN
byte: without a SYNC among them nothing is left; a good frame whose first SYNC stands among them, ending with the last of them, is delivered; one
broken off is being collected (R113; log 15). That the command changes nothing without such a frame is the model's choice (log 4). -/
def Obligations.BadCrcFrame : Prop :=
  (∀ (s : State) (p : Port), (framerOf s p).holdsBadFrame = false → exec (.badCrcFrame p) s = .next s) ∧
  ∀ (s : State) (p : Port), (framerOf s p).holdsBadFrame = true →
    let bytes : List RxByte := (framerOf s p).buffer.map (fun b => { value := b, fault := false }) ++ (framerOf s p).backlog
    let asSent : List Byte → List RxByte := fun bs => bs.map fun b => { value := b, fault := false }
    ((∀ x ∈ bytes, x.fault = true ∨ x.value ≠ 0xA7) → exec (.badCrcFrame p) s = .next (setFramer p Framer.atReset s)) ∧
    (∀ (pre : List Byte) (f : RxFrame) (i : Instr), (∀ b ∈ pre, b ≠ 0xA7) → f.fits = true → bytes = asSent (pre ++ frameBytesOf f) →
      i.frame? = some (p, f) → exec (.badCrcFrame p) s = exec i (setFramer p Framer.atReset s)) ∧
    ∀ (pre : List Byte) (len : Byte) (part : List Byte), (∀ b ∈ pre, b ≠ 0xA7) → 3 ≤ len.toNat → len.toNat ≤ 67 → part.length < len.toNat + 2 →
      bytes = asSent (pre ++ 0xA7 :: len :: part) →
      exec (.badCrcFrame p) s =
        .next (setFramer p { state := .collect, buffer := len :: part, gapRunning := true, backlog := [] } s)

/-- The bytes of a frame that fits, arriving one after another at a framer that hunts, do exactly what the frame's own command does (R110 to R113; log 1). -/
def Obligations.FrameBytesDeliverFrame : Prop :=
  ∀ (s : State) (p : Port) (f : RxFrame) (i : Instr), f.fits = true → i.frame? = some (p, f) → framerOf s p = Framer.atReset →
    runAll ((frameBytesOf f).map fun b => Instr.arrivingByte p b false) s = exec i s

/-- The CRC register takes each bit as R111 says, starts at 0xFFFF, and, run on through the two CRC bytes of a good frame, ends at 0 (R111). -/
def Obligations.CrcOfFrame : Prop :=
  (∀ (reg : Word16) (bit : Bool),
    crcBit reg bit = if reg.getLsbD 15 = bit then reg <<< 1 else (reg <<< 1) ^^^ 0x8005) ∧
  (∀ (reg : Word16) (b : Byte), crcByte reg b = (List.range 8).foldl (fun x i => crcBit x (b.getLsbD (7 - i))) reg) ∧
  (∀ bytes : List Byte, crc bytes = bytes.foldl crcByte 0xFFFF) ∧
  (∀ (typ seq a : Byte) (payload : List Byte),
    frameBytes typ seq a payload =
      0xA7 :: frameBody typ seq a payload ++
        [(crc (frameBody typ seq a payload)).extractLsb' 8 8, (crc (frameBody typ seq a payload)).extractLsb' 0 8] ∧
    frameBody typ seq a payload = BitVec.ofNat 8 (payload.length + 3) :: typ :: seq :: a :: payload) ∧
  (∀ (len typ seq a : Byte) (payload : List Byte) (x y : Byte), payload.length + 3 = len.toNat →
    (goodFrame? (len :: typ :: seq :: a :: payload ++ [x, y]) = some ⟨typ, seq, a, payload⟩ ↔
      wordOf x y = crc (len :: typ :: seq :: a :: payload))) ∧
  ∀ bytes : List Byte, crcRun 0xFFFF (bytes ++ crcBytes (crc bytes)) = 0

/-! ## Messages -/

/-- Decoding and writing agree: what a request in range asks is read back from the payload written for it, whatever it asks; and a payload that
decodes is the one written for what was read, in range. The same for OPEN (R158 to R162). -/
def Obligations.DecodeOfWritten : Prop :=
  (∀ ask : Ask, ask.inRange = true → decodeRequest ask.typ ask.payload = .ok ask) ∧
  (∀ (typ : Byte) (payload : List Byte) (ask : Ask), decodeRequest typ payload = .ok ask →
    ask.typ = typ ∧ ask.payload = payload ∧ ask.inRange = true) ∧
  (∀ o : OpenAsk, 1 ≤ o.rto → o.rto ≤ 255 → decodeOpen o.payload = .ok o) ∧
  ∀ (payload : List Byte) (o : OpenAsk), decodeOpen payload = .ok o → o.payload = payload ∧ 1 ≤ o.rto ∧ o.rto ≤ 255

/-- Which status a request that does not decode gets (R161): UNKNOWN_TYPE for a TYPE that is not 0x01 to 0x08 or 0x10 to 0x16; else BAD_LENGTH for a LEN that does not
fit the TYPE; else BAD_VALUE. And for OPEN, BAD_LENGTH for a LEN other than 7, else BAD_VALUE (R161, R162). Which values pass is DecodeOfWritten's. -/
def Obligations.DecodeRefusals : Prop :=
  (∀ (typ : Byte) (payload : List Byte),
    let len := payload.length + 3
    let known := (1 ≤ typ.toNat ∧ typ.toNat ≤ 8) ∨ (0x10 ≤ typ.toNat ∧ typ.toNat ≤ 0x16)
    let fits :=
      ((typ = 0x02 ∨ typ = 0x08 ∨ typ = 0x16) → len = 3) ∧
      ((typ = 0x03 ∨ typ = 0x05 ∨ typ = 0x06 ∨ typ = 0x13 ∨ typ = 0x15) → len = 4) ∧
      (typ = 0x04 → len = 5) ∧ (typ = 0x12 → len = 6) ∧ (typ = 0x01 → len = 7) ∧ (typ = 0x14 → len = 12) ∧
      ((typ = 0x07 ∨ typ = 0x10) → 5 ≤ len ∧ len ≤ 67 ∧ len % 2 = 1) ∧
      (typ = 0x11 → 6 ≤ len ∧ len ≤ 66 ∧ len % 3 = 0)
    (¬known → decodeRequest typ payload = .refused .unknownType) ∧
    (known → ¬fits → decodeRequest typ payload = .refused .badLength) ∧
    (known → fits → ∀ st : Status, decodeRequest typ payload = .refused st → st = .badValue)) ∧
  ∀ payload : List Byte,
    (payload.length + 3 ≠ 7 → decodeOpen payload = .refused .badLength) ∧
    (payload.length + 3 = 7 → ∀ st : Status, decodeOpen payload = .refused st → st = .badValue)

/-- The codes of names (R157), the layout of the request payloads (R158 to R160) and the TYPE each request bears; and a code is read as the name it stands for, every
other value as none (R162). -/
def Obligations.CodesAndRequestLayouts : Prop :=
  (Role.user.code = 0 ∧ Role.admin.code = 1 ∧ Mode.stream.code = 0 ∧ Mode.latched.code = 1 ∧
    SwitchMode.off.code = 0 ∧ SwitchMode.on.code = 1 ∧ SwitchMode.blinkA.code = 2 ∧ SwitchMode.blinkB.code = 3 ∧
    MatrixType.plain.code = 0 ∧ MatrixType.isolated.code = 1 ∧
    FramePeriod.ms2.code = 0 ∧ FramePeriod.ms4.code = 1 ∧ FramePeriod.ms8.code = 2 ∧ FramePeriod.ms16.code = 3 ∧
    WatchPeriod.ms16.code = 0 ∧ WatchPeriod.ms32.code = 1 ∧ WatchPeriod.ms64.code = 2 ∧ WatchPeriod.ms128.code = 3 ∧
    ScanOp.start.code = 0 ∧ ScanOp.halt.code = 1 ∧ ScanOp.watch.code = 2 ∧
    (∀ g : Option Group, (groupCode g).toNat = match g with | some g => g.val | none => 255) ∧
    ∀ k : Option Key, (followCode k).toNat = match k with | some k => k.val | none => 255) ∧
  (∀ (b : Byte),
    (∀ x : Role, readRole b = some x ↔ b = x.code) ∧ (∀ x : Mode, readMode b = some x ↔ b = x.code) ∧
    (∀ x : SwitchMode, readSwitchMode b = some x ↔ b = x.code) ∧ (∀ x : MatrixType, readMatrixType b = some x ↔ b = x.code) ∧
    (∀ x : FramePeriod, readFramePeriod b = some x ↔ b = x.code) ∧ (∀ x : WatchPeriod, readWatchPeriod b = some x ↔ b = x.code) ∧
    (∀ x : ScanOp, readScanOp b = some x ↔ b = x.code) ∧ (∀ g : Group, readGroup b = some g ↔ b.toNat = g.val) ∧
    (∀ g : Option Group, readGroupOrNone b = some g ↔ b = groupCode g) ∧ (∀ k : Key, readIndex b = some k ↔ b.toNat = k.val) ∧
    ∀ k : Option Key, readFollow b = some k ↔ b = followCode k) ∧
  (∀ (n : Nat) (w : Word16),
    (byteOf n).toNat = n % 256 ∧ (hiByte w).toNat = w.toNat / 256 ∧ (loByte w).toNat = w.toNat % 256 ∧ wordOf (hiByte w) (loByte w) = w) ∧
  (∀ ask : Ask,
    (ask.typ, ask.payload) =
      match ask with
      | .close => (0x02, [])
      | .grant n => (0x03, [byteOf n])
      | .join g m => (0x04, [byteOf g.val, m.code])
      | .leave g => (0x05, [byteOf g.val])
      | .snapshot g => (0x06, [byteOf g.val])
      | .lamps es => (0x07, es.flatMap fun e => [byteOf e.1.val, e.2.code])
      | .status => (0x08, [])
      | .mapKeys es => (0x10, es.flatMap fun e => [byteOf e.1.val, groupCode e.2])
      | .mapLamps es => (0x11, es.flatMap fun e => [byteOf e.1.val, groupCode e.2.1, followCode e.2.2])
      | .groupSetup g delay interval => (0x12, [byteOf g.val, byteOf delay, byteOf interval])
      | .dissolve g => (0x13, [byteOf g.val])
      | .scanSetup su =>
        (0x14, [su.framePeriod.code, byteOf su.np, byteOf su.nr, su.matrix.code, hiByte su.columnMask, loByte su.columnMask,
          byteOf su.idleLimit, su.watchPeriod.code, byteOf su.stuckLimit])
      | .scanControl op => (0x15, [op.code])
      | .reset => (0x16, [])) ∧
  (∀ o : OpenAsk, o.payload = [o.role.code, byteOf o.rto, hiByte o.tag, loByte o.tag]) ∧
  ∀ (p : Port) (seq a typ : Byte) (bs : List Byte),
    (Instr.ack p seq a bs).frame? = some (p, ⟨0x00, seq, a, bs⟩) ∧ (Instr.openSession p seq a bs).frame? = some (p, ⟨0x01, seq, a, bs⟩) ∧
    (Instr.close p seq a bs).frame? = some (p, ⟨0x02, seq, a, bs⟩) ∧ (Instr.grant p seq a bs).frame? = some (p, ⟨0x03, seq, a, bs⟩) ∧
    (Instr.join p seq a bs).frame? = some (p, ⟨0x04, seq, a, bs⟩) ∧ (Instr.leave p seq a bs).frame? = some (p, ⟨0x05, seq, a, bs⟩) ∧
    (Instr.snapshot p seq a bs).frame? = some (p, ⟨0x06, seq, a, bs⟩) ∧ (Instr.lamps p seq a bs).frame? = some (p, ⟨0x07, seq, a, bs⟩) ∧
    (Instr.status p seq a bs).frame? = some (p, ⟨0x08, seq, a, bs⟩) ∧ (Instr.mapKeys p seq a bs).frame? = some (p, ⟨0x10, seq, a, bs⟩) ∧
    (Instr.mapLamps p seq a bs).frame? = some (p, ⟨0x11, seq, a, bs⟩) ∧ (Instr.groupSetup p seq a bs).frame? = some (p, ⟨0x12, seq, a, bs⟩) ∧
    (Instr.dissolve p seq a bs).frame? = some (p, ⟨0x13, seq, a, bs⟩) ∧ (Instr.scanSetup p seq a bs).frame? = some (p, ⟨0x14, seq, a, bs⟩) ∧
    (Instr.scanControlStart p seq a bs).frame? = some (p, ⟨0x15, seq, a, 0 :: bs⟩) ∧
    (Instr.scanControlHalt p seq a bs).frame? = some (p, ⟨0x15, seq, a, 1 :: bs⟩) ∧
    (Instr.scanControlWatch p seq a bs).frame? = some (p, ⟨0x15, seq, a, 2 :: bs⟩) ∧
    (Instr.reset p seq a bs).frame? = some (p, ⟨0x16, seq, a, bs⟩) ∧
    (Instr.unknownTypeRequest p typ seq a bs).frame? = some (p, ⟨typ, seq, a, bs⟩)

/-- The layout of the part's own messages: sets (R156), status, scan state, port, kind and flag codes and TYPEs (R157), the data of every REPLY (R163, R164), event
records and LOSS records (R165), NOTICE (R166), the unsequenced frames (R167), and how many bytes each frame holds the line for. -/
def Obligations.MessageLayouts : Prop :=
  (∀ s : KeySet, (keySetBytes s).length = 16 ∧
    ∀ (i : Fin 16) (j : Fin 8), ∃ b : Byte, (keySetBytes s)[i.val]? = some b ∧ b.getLsbD j.val = s.getLsbD (8 * i.val + j.val)) ∧
  (∀ s : GroupSet, (groupSetBytes s).length = 4 ∧
    ∀ (i : Fin 4) (j : Fin 8), ∃ b : Byte, (groupSetBytes s)[i.val]? = some b ∧ b.getLsbD j.val = s.getLsbD (8 * i.val + j.val)) ∧
  (Status.ok.code = 0x00 ∧ Status.badLength.code = 0x01 ∧ Status.badValue.code = 0x02 ∧ Status.unknownType.code = 0x03 ∧
    Status.notAdmin.code = 0x04 ∧ Status.notMember.code = 0x05 ∧ Status.alreadyMember.code = 0x06 ∧ Status.lampLocked.code = 0x07 ∧
    Status.followLamp.code = 0x08 ∧ Status.scanRunning.code = 0x09 ∧ Status.notIdle.code = 0x0A ∧ Status.busy.code = 0x0B ∧
    Status.resetting.code = 0x0C ∧ Status.adminHeld.code = 0x0D ∧ Status.notScanning.code = 0x0E) ∧
  (ScanState.halted.code = 0 ∧ ScanState.active.code = 1 ∧ ScanState.watch.code = 2 ∧
    portCode .p0 = 0 ∧ portCode .p1 = 1 ∧ portCode .p2 = 2 ∧
    Kind.press.code = 1 ∧ Kind.release.code = 2 ∧ Kind.repeated.code = 3 ∧ Kind.stuck.code = 4 ∧
    ∀ f : Flags, f.code.toNat = (if f.remapped then 1 else 0) + (if f.halted then 2 else 0) + (if f.wasStuck then 4 else 0)) ∧
  (∀ data : ReplyData,
    data.bytes =
      match data with
      | .none => []
      | .identity => [0x16, 0x08, 0x01, 16, 8, 3, 64, 8]
      | .credits n => [byteOf n]
      | .removed n => [byteOf n]
      | .transition n => [hiByte n, loByte n]
      | .snapshot g down stuck suspect frame number =>
        [byteOf g.val] ++ keySetBytes down ++ keySetBytes stuck ++ keySetBytes suspect ++ [hiByte frame, loByte frame, hiByte number, loByte number]
      | .status st frame number credits queue loss resend role admin =>
        [st.code, hiByte frame, loByte frame, hiByte number, loByte number, byteOf credits, byteOf queue, byteOf loss, byteOf resend, role.code,
          match admin with
          | some p => portCode p
          | none => 0xFF]
      | .scan st => [st.code]) ∧
  (∀ rec : EventRec,
    rec.bytes =
      match rec with
      | .event t =>
        [hiByte t.number, loByte t.number, hiByte t.frame, loByte t.frame, byteOf t.key.val, groupCode t.group, t.kind.code, t.flags.code]
      | .loss number frame count => [hiByte number, loByte number, hiByte frame, loByte frame, byteOf count, 255, 5, 0]) ∧
  (∀ body : Body,
    (body.typ, body.payload) =
      match body with
      | .reply r => (0x80, [r.typ, r.seq, r.status.code] ++ r.data.bytes)
      | .report records => (0x81, records.flatMap EventRec.bytes)
      | .notice changed dissolved scan =>
        (0x82, groupSetBytes changed ++ groupSetBytes dissolved ++
          [match scan with
            | some st => st.code
            | none => 0xFF])
      | .ack => (0x00, [])
      | .noSession => (0x83, [])
      | .openRefused st => (0x84, [st.code])) ∧
  ∀ f : TxFrame,
    f.bytes = frameBytes f.body.typ f.seq f.ack f.body.payload ∧ f.bytes.length = f.size ∧
    f.size =
      match f.body with
      | .reply r =>
        (match r.data with
          | .none => 10
          | .identity => 18
          | .credits _ => 11
          | .removed _ => 11
          | .transition _ => 12
          | .snapshot _ _ _ _ _ _ => 63
          | .status _ _ _ _ _ _ _ _ _ => 21
          | .scan _ => 11)
      | .report records => 7 + 8 * records.length
      | .notice _ _ _ => 16
      | .ack => 7
      | .noSession => 7
      | .openRefused _ => 8

/-! ## What every step keeps -/

/-- Every count, list and setting stays in the range the manual gives it. -/
def Obligations.StepKeepsRanges : Prop := ∀ s t : State, Ranges s → step s = .next t → Ranges t

/-- The panel stays sound: lines, scan frame, watch timer and HALT agree with the scan state, and every key is UP outside ACTIVE. -/
def Obligations.StepKeepsPanelSound : Prop := ∀ s t : State, PanelSound s → step s = .next t → PanelSound t

/-- At most one session holds the ADMIN role, and the admin claim names exactly its port; roles and tags stand in OPEN alone; the reset in flight is
the claim holder's (R141, R145, R153). -/
def Obligations.StepKeepsSessionsSound : Prop := ∀ s t : State, SessionsSound s → step s = .next t → SessionsSound t

/-- Every member's session is OPEN, notice sets agree with the memberships, and a lamp whose group has no members is OFF or FOLLOW (R56, R57, R70, R71). -/
def Obligations.StepKeepsMembersSound : Prop := ∀ s t : State, MembersSound s → step s = .next t → MembersSound t

/-- Every Link Unit stays sound: resend numbers, timers, burst, line and framer agree, and every frame of the part fits. -/
def Obligations.StepKeepsLinksSound : Prop := ∀ s t : State, LinksSound s → step s = .next t → LinksSound t

/-- After every step from a settled state nothing more follows without a command, and no IDLE transmitter has a frame to choose (R131; log 7, 19). -/
def Obligations.StepKeepsSettled : Prop := ∀ s t : State, Settled s → step s = .next t → Settled t
end

