-- ==== Sys2Proof/Laws/State.lean ====
section
/-! SUPPORT. One lemma for each field of State and each update of one part of it, true by rfl: no later proof unfolds a record update. -/

namespace Sys2Proof.Machine

/-! ## PerPort -/

variable {α : Type}

@[simp] theorem PerPort.get_set_same (x : PerPort α) (p : Port) (a : α) : (x.set p a).get p = a := by cases p <;> rfl

theorem PerPort.get_set (x : PerPort α) (p q : Port) (a : α) : (x.set p a).get q = if q = p then a else x.get q := by
  cases p <;> cases q <;> rfl

@[simp] theorem PerPort.get_set_ne (x : PerPort α) {p q : Port} (h : q ≠ p) (a : α) : (x.set p a).get q = x.get q := by
  rw [PerPort.get_set, if_neg h]

@[simp] theorem PerPort.get_all (a : α) (p : Port) : (PerPort.all a).get p = a := by cases p <;> rfl

@[simp] theorem PerPort.set_get (x : PerPort α) (p : Port) : x.set p (x.get p) = x := by cases p <;> rfl

@[simp] theorem PerPort.set_set (x : PerPort α) (p : Port) (a b : α) : (x.set p a).set p b = x.set p b := by cases p <;> rfl

@[ext] theorem PerPort.ext_get {x y : PerPort α} (h : ∀ p, x.get p = y.get p) : x = y := by
  have h0 := h .p0
  have h1 := h .p1
  have h2 := h .p2
  cases x
  cases y
  simp only [PerPort.get] at h0 h1 h2
  simp only [h0, h1, h2]

/-- What holds of the three ports holds of every port. -/
theorem Port.forall_iff {P : Port → Prop} : (∀ p, P p) ↔ P .p0 ∧ P .p1 ∧ P .p2 :=
  ⟨fun h => ⟨h _, h _, h _⟩, fun h p => by cases p <;> simp only [h]⟩

/-! ## updLink -/

@[simp] theorem updLink_scan (p : Port) (f : Link → Link) (s : State) : (updLink p f s).scan = s.scan := rfl
@[simp] theorem updLink_keys (p : Port) (f : Link → Link) (s : State) : (updLink p f s).keys = s.keys := rfl
@[simp] theorem updLink_groups (p : Port) (f : Link → Link) (s : State) : (updLink p f s).groups = s.groups := rfl
@[simp] theorem updLink_disp (p : Port) (f : Link → Link) (s : State) : (updLink p f s).disp = s.disp := rfl
@[simp] theorem updLink_delivery (p : Port) (f : Link → Link) (s : State) : (updLink p f s).delivery = s.delivery := rfl
@[simp] theorem updLink_lamps (p : Port) (f : Link → Link) (s : State) : (updLink p f s).lamps = s.lamps := rfl
@[simp] theorem updLink_mgr (p : Port) (f : Link → Link) (s : State) : (updLink p f s).mgr = s.mgr := rfl
@[simp] theorem updLink_pins (p : Port) (f : Link → Link) (s : State) : (updLink p f s).pins = s.pins := rfl
@[simp] theorem updLink_races (p : Port) (f : Link → Link) (s : State) : (updLink p f s).races = s.races := rfl
@[simp] theorem updLink_pending (p : Port) (f : Link → Link) (s : State) : (updLink p f s).pending = s.pending := rfl

/-! ## updDelivery -/

@[simp] theorem updDelivery_scan (p : Port) (f : Delivery → Delivery) (s : State) : (updDelivery p f s).scan = s.scan := rfl
@[simp] theorem updDelivery_keys (p : Port) (f : Delivery → Delivery) (s : State) : (updDelivery p f s).keys = s.keys := rfl
@[simp] theorem updDelivery_groups (p : Port) (f : Delivery → Delivery) (s : State) : (updDelivery p f s).groups = s.groups := rfl
@[simp] theorem updDelivery_disp (p : Port) (f : Delivery → Delivery) (s : State) : (updDelivery p f s).disp = s.disp := rfl
@[simp] theorem updDelivery_lamps (p : Port) (f : Delivery → Delivery) (s : State) : (updDelivery p f s).lamps = s.lamps := rfl
@[simp] theorem updDelivery_link (p : Port) (f : Delivery → Delivery) (s : State) : (updDelivery p f s).link = s.link := rfl
@[simp] theorem updDelivery_mgr (p : Port) (f : Delivery → Delivery) (s : State) : (updDelivery p f s).mgr = s.mgr := rfl
@[simp] theorem updDelivery_pins (p : Port) (f : Delivery → Delivery) (s : State) : (updDelivery p f s).pins = s.pins := rfl
@[simp] theorem updDelivery_races (p : Port) (f : Delivery → Delivery) (s : State) : (updDelivery p f s).races = s.races := rfl
@[simp] theorem updDelivery_pending (p : Port) (f : Delivery → Delivery) (s : State) : (updDelivery p f s).pending = s.pending := rfl

/-! ## setSession -/

@[simp] theorem setSession_scan (p : Port) (x : Session) (s : State) : (setSession p x s).scan = s.scan := rfl
@[simp] theorem setSession_keys (p : Port) (x : Session) (s : State) : (setSession p x s).keys = s.keys := rfl
@[simp] theorem setSession_groups (p : Port) (x : Session) (s : State) : (setSession p x s).groups = s.groups := rfl
@[simp] theorem setSession_disp (p : Port) (x : Session) (s : State) : (setSession p x s).disp = s.disp := rfl
@[simp] theorem setSession_delivery (p : Port) (x : Session) (s : State) : (setSession p x s).delivery = s.delivery := rfl
@[simp] theorem setSession_lamps (p : Port) (x : Session) (s : State) : (setSession p x s).lamps = s.lamps := rfl
@[simp] theorem setSession_link (p : Port) (x : Session) (s : State) : (setSession p x s).link = s.link := rfl
@[simp] theorem setSession_pins (p : Port) (x : Session) (s : State) : (setSession p x s).pins = s.pins := rfl
@[simp] theorem setSession_races (p : Port) (x : Session) (s : State) : (setSession p x s).races = s.races := rfl
@[simp] theorem setSession_pending (p : Port) (x : Session) (s : State) : (setSession p x s).pending = s.pending := rfl

/-! ## setInbox -/

@[simp] theorem setInbox_scan (p : Port) (rs : List Queued) (s : State) : (setInbox p rs s).scan = s.scan := rfl
@[simp] theorem setInbox_keys (p : Port) (rs : List Queued) (s : State) : (setInbox p rs s).keys = s.keys := rfl
@[simp] theorem setInbox_groups (p : Port) (rs : List Queued) (s : State) : (setInbox p rs s).groups = s.groups := rfl
@[simp] theorem setInbox_disp (p : Port) (rs : List Queued) (s : State) : (setInbox p rs s).disp = s.disp := rfl
@[simp] theorem setInbox_delivery (p : Port) (rs : List Queued) (s : State) : (setInbox p rs s).delivery = s.delivery := rfl
@[simp] theorem setInbox_lamps (p : Port) (rs : List Queued) (s : State) : (setInbox p rs s).lamps = s.lamps := rfl
@[simp] theorem setInbox_link (p : Port) (rs : List Queued) (s : State) : (setInbox p rs s).link = s.link := rfl
@[simp] theorem setInbox_pins (p : Port) (rs : List Queued) (s : State) : (setInbox p rs s).pins = s.pins := rfl
@[simp] theorem setInbox_races (p : Port) (rs : List Queued) (s : State) : (setInbox p rs s).races = s.races := rfl
@[simp] theorem setInbox_pending (p : Port) (rs : List Queued) (s : State) : (setInbox p rs s).pending = s.pending := rfl

/-! ## setHanded -/

@[simp] theorem setHanded_scan (p : Port) (h : Option Handed) (s : State) : (setHanded p h s).scan = s.scan := rfl
@[simp] theorem setHanded_keys (p : Port) (h : Option Handed) (s : State) : (setHanded p h s).keys = s.keys := rfl
@[simp] theorem setHanded_groups (p : Port) (h : Option Handed) (s : State) : (setHanded p h s).groups = s.groups := rfl
@[simp] theorem setHanded_disp (p : Port) (h : Option Handed) (s : State) : (setHanded p h s).disp = s.disp := rfl
@[simp] theorem setHanded_delivery (p : Port) (h : Option Handed) (s : State) : (setHanded p h s).delivery = s.delivery := rfl
@[simp] theorem setHanded_lamps (p : Port) (h : Option Handed) (s : State) : (setHanded p h s).lamps = s.lamps := rfl
@[simp] theorem setHanded_link (p : Port) (h : Option Handed) (s : State) : (setHanded p h s).link = s.link := rfl
@[simp] theorem setHanded_pins (p : Port) (h : Option Handed) (s : State) : (setHanded p h s).pins = s.pins := rfl
@[simp] theorem setHanded_races (p : Port) (h : Option Handed) (s : State) : (setHanded p h s).races = s.races := rfl
@[simp] theorem setHanded_pending (p : Port) (h : Option Handed) (s : State) : (setHanded p h s).pending = s.pending := rfl

/-! ## setSnapshot -/

@[simp] theorem setSnapshot_scan (p : Port) (x : Option SnapshotInFlight) (s : State) : (setSnapshot p x s).scan = s.scan := rfl
@[simp] theorem setSnapshot_keys (p : Port) (x : Option SnapshotInFlight) (s : State) : (setSnapshot p x s).keys = s.keys := rfl
@[simp] theorem setSnapshot_groups (p : Port) (x : Option SnapshotInFlight) (s : State) : (setSnapshot p x s).groups = s.groups := rfl
@[simp] theorem setSnapshot_delivery (p : Port) (x : Option SnapshotInFlight) (s : State) : (setSnapshot p x s).delivery = s.delivery := rfl
@[simp] theorem setSnapshot_lamps (p : Port) (x : Option SnapshotInFlight) (s : State) : (setSnapshot p x s).lamps = s.lamps := rfl
@[simp] theorem setSnapshot_link (p : Port) (x : Option SnapshotInFlight) (s : State) : (setSnapshot p x s).link = s.link := rfl
@[simp] theorem setSnapshot_mgr (p : Port) (x : Option SnapshotInFlight) (s : State) : (setSnapshot p x s).mgr = s.mgr := rfl
@[simp] theorem setSnapshot_pins (p : Port) (x : Option SnapshotInFlight) (s : State) : (setSnapshot p x s).pins = s.pins := rfl
@[simp] theorem setSnapshot_races (p : Port) (x : Option SnapshotInFlight) (s : State) : (setSnapshot p x s).races = s.races := rfl
@[simp] theorem setSnapshot_pending (p : Port) (x : Option SnapshotInFlight) (s : State) : (setSnapshot p x s).pending = s.pending := rfl

/-! ## setGroup -/

@[simp] theorem setGroup_scan (g : Group) (r : GroupRec) (s : State) : (setGroup g r s).scan = s.scan := rfl
@[simp] theorem setGroup_keys (g : Group) (r : GroupRec) (s : State) : (setGroup g r s).keys = s.keys := rfl
@[simp] theorem setGroup_disp (g : Group) (r : GroupRec) (s : State) : (setGroup g r s).disp = s.disp := rfl
@[simp] theorem setGroup_delivery (g : Group) (r : GroupRec) (s : State) : (setGroup g r s).delivery = s.delivery := rfl
@[simp] theorem setGroup_lamps (g : Group) (r : GroupRec) (s : State) : (setGroup g r s).lamps = s.lamps := rfl
@[simp] theorem setGroup_link (g : Group) (r : GroupRec) (s : State) : (setGroup g r s).link = s.link := rfl
@[simp] theorem setGroup_mgr (g : Group) (r : GroupRec) (s : State) : (setGroup g r s).mgr = s.mgr := rfl
@[simp] theorem setGroup_pins (g : Group) (r : GroupRec) (s : State) : (setGroup g r s).pins = s.pins := rfl
@[simp] theorem setGroup_races (g : Group) (r : GroupRec) (s : State) : (setGroup g r s).races = s.races := rfl
@[simp] theorem setGroup_pending (g : Group) (r : GroupRec) (s : State) : (setGroup g r s).pending = s.pending := rfl

/-! ## setLamp -/

@[simp] theorem setLamp_scan (l : Lamp) (x : LampRec) (s : State) : (setLamp l x s).scan = s.scan := rfl
@[simp] theorem setLamp_keys (l : Lamp) (x : LampRec) (s : State) : (setLamp l x s).keys = s.keys := rfl
@[simp] theorem setLamp_groups (l : Lamp) (x : LampRec) (s : State) : (setLamp l x s).groups = s.groups := rfl
@[simp] theorem setLamp_disp (l : Lamp) (x : LampRec) (s : State) : (setLamp l x s).disp = s.disp := rfl
@[simp] theorem setLamp_delivery (l : Lamp) (x : LampRec) (s : State) : (setLamp l x s).delivery = s.delivery := rfl
@[simp] theorem setLamp_link (l : Lamp) (x : LampRec) (s : State) : (setLamp l x s).link = s.link := rfl
@[simp] theorem setLamp_mgr (l : Lamp) (x : LampRec) (s : State) : (setLamp l x s).mgr = s.mgr := rfl
@[simp] theorem setLamp_pins (l : Lamp) (x : LampRec) (s : State) : (setLamp l x s).pins = s.pins := rfl
@[simp] theorem setLamp_races (l : Lamp) (x : LampRec) (s : State) : (setLamp l x s).races = s.races := rfl
@[simp] theorem setLamp_pending (l : Lamp) (x : LampRec) (s : State) : (setLamp l x s).pending = s.pending := rfl

/-! ## setFramer -/

@[simp] theorem setFramer_scan (p : Port) (fr : Framer) (s : State) : (setFramer p fr s).scan = s.scan := rfl
@[simp] theorem setFramer_keys (p : Port) (fr : Framer) (s : State) : (setFramer p fr s).keys = s.keys := rfl
@[simp] theorem setFramer_groups (p : Port) (fr : Framer) (s : State) : (setFramer p fr s).groups = s.groups := rfl
@[simp] theorem setFramer_disp (p : Port) (fr : Framer) (s : State) : (setFramer p fr s).disp = s.disp := rfl
@[simp] theorem setFramer_delivery (p : Port) (fr : Framer) (s : State) : (setFramer p fr s).delivery = s.delivery := rfl
@[simp] theorem setFramer_lamps (p : Port) (fr : Framer) (s : State) : (setFramer p fr s).lamps = s.lamps := rfl
@[simp] theorem setFramer_mgr (p : Port) (fr : Framer) (s : State) : (setFramer p fr s).mgr = s.mgr := rfl
@[simp] theorem setFramer_pins (p : Port) (fr : Framer) (s : State) : (setFramer p fr s).pins = s.pins := rfl
@[simp] theorem setFramer_races (p : Port) (fr : Framer) (s : State) : (setFramer p fr s).races = s.races := rfl
@[simp] theorem setFramer_pending (p : Port) (fr : Framer) (s : State) : (setFramer p fr s).pending = s.pending := rfl

/-! ## blank -/

@[simp] theorem blank_scan (g : Group) (s : State) : (blank g s).scan = s.scan := rfl
@[simp] theorem blank_keys (g : Group) (s : State) : (blank g s).keys = s.keys := rfl
@[simp] theorem blank_groups (g : Group) (s : State) : (blank g s).groups = s.groups := rfl
@[simp] theorem blank_disp (g : Group) (s : State) : (blank g s).disp = s.disp := rfl
@[simp] theorem blank_delivery (g : Group) (s : State) : (blank g s).delivery = s.delivery := rfl
@[simp] theorem blank_link (g : Group) (s : State) : (blank g s).link = s.link := rfl
@[simp] theorem blank_mgr (g : Group) (s : State) : (blank g s).mgr = s.mgr := rfl
@[simp] theorem blank_pins (g : Group) (s : State) : (blank g s).pins = s.pins := rfl
@[simp] theorem blank_races (g : Group) (s : State) : (blank g s).races = s.races := rfl
@[simp] theorem blank_pending (g : Group) (s : State) : (blank g s).pending = s.pending := rfl

/-! ## setPort -/

@[simp] theorem setPort_scan (p : Port) (l : Link) (d : Delivery) (s : State) : (setPort p l d s).scan = s.scan := rfl
@[simp] theorem setPort_keys (p : Port) (l : Link) (d : Delivery) (s : State) : (setPort p l d s).keys = s.keys := rfl
@[simp] theorem setPort_groups (p : Port) (l : Link) (d : Delivery) (s : State) : (setPort p l d s).groups = s.groups := rfl
@[simp] theorem setPort_disp (p : Port) (l : Link) (d : Delivery) (s : State) : (setPort p l d s).disp = s.disp := rfl
@[simp] theorem setPort_lamps (p : Port) (l : Link) (d : Delivery) (s : State) : (setPort p l d s).lamps = s.lamps := rfl
@[simp] theorem setPort_mgr (p : Port) (l : Link) (d : Delivery) (s : State) : (setPort p l d s).mgr = s.mgr := rfl
@[simp] theorem setPort_pins (p : Port) (l : Link) (d : Delivery) (s : State) : (setPort p l d s).pins = s.pins := rfl
@[simp] theorem setPort_races (p : Port) (l : Link) (d : Delivery) (s : State) : (setPort p l d s).races = s.races := rfl
@[simp] theorem setPort_pending (p : Port) (l : Link) (d : Delivery) (s : State) : (setPort p l d s).pending = s.pending := rfl

@[simp] theorem setPort_link_same (p : Port) (l : Link) (d : Delivery) (s : State) : (setPort p l d s).link.get p = l := by
  simp only [setPort, PerPort.get_set_same]

@[simp] theorem setPort_link_ne {p q : Port} (h : q ≠ p) (l : Link) (d : Delivery) (s : State) :
    (setPort p l d s).link.get q = s.link.get q := by
  simp only [setPort, PerPort.get_set_ne _ h]

@[simp] theorem setPort_delivery_same (p : Port) (l : Link) (d : Delivery) (s : State) : (setPort p l d s).delivery.get p = d := by
  simp only [setPort, PerPort.get_set_same]

@[simp] theorem setPort_delivery_ne {p q : Port} (h : q ≠ p) (l : Link) (d : Delivery) (s : State) :
    (setPort p l d s).delivery.get q = s.delivery.get q := by
  simp only [setPort, PerPort.get_set_ne _ h]

/-- A port's units replaced by themselves: nothing changes. -/
@[simp] theorem setPort_self (p : Port) (s : State) : setPort p (s.link.get p) (s.delivery.get p) s = s := by
  simp only [setPort, PerPort.set_get]

@[simp] theorem setPort_setPort (p : Port) (l l' : Link) (d d' : Delivery) (s : State) :
    setPort p l' d' (setPort p l d s) = setPort p l' d' s := by
  simp only [setPort, PerPort.set_set]

/-! ## What an update does to its own part -/

@[simp] theorem updLink_get_same (p : Port) (f : Link → Link) (s : State) : (updLink p f s).link.get p = f (s.link.get p) := by
  simp only [updLink, PerPort.get_set_same]

@[simp] theorem updLink_get_ne {p q : Port} (h : q ≠ p) (f : Link → Link) (s : State) : (updLink p f s).link.get q = s.link.get q := by
  simp only [updLink, PerPort.get_set_ne _ h]

@[simp] theorem updDelivery_get_same (p : Port) (f : Delivery → Delivery) (s : State) :
    (updDelivery p f s).delivery.get p = f (s.delivery.get p) := by
  simp only [updDelivery, PerPort.get_set_same]

@[simp] theorem updDelivery_get_ne {p q : Port} (h : q ≠ p) (f : Delivery → Delivery) (s : State) :
    (updDelivery p f s).delivery.get q = s.delivery.get q := by
  simp only [updDelivery, PerPort.get_set_ne _ h]

@[simp] theorem setFramer_get_ne {p q : Port} (h : q ≠ p) (fr : Framer) (s : State) : (setFramer p fr s).link.get q = s.link.get q := by
  simp only [setFramer, updLink_get_ne h]

@[simp] theorem framerOf_setFramer (p : Port) (fr : Framer) (s : State) : framerOf (setFramer p fr s) p = fr := by
  simp only [framerOf, setFramer, updLink_get_same]

@[simp] theorem sessionOf_setSession_same (p : Port) (x : Session) (s : State) : sessionOf (setSession p x s) p = x := by
  simp only [sessionOf, setSession, PerPort.get_set_same]

@[simp] theorem sessionOf_setSession_ne {p q : Port} (h : q ≠ p) (x : Session) (s : State) :
    sessionOf (setSession p x s) q = sessionOf s q := by
  simp only [sessionOf, setSession, PerPort.get_set_ne _ h]

@[simp] theorem setSession_adminClaim (p : Port) (x : Session) (s : State) : (setSession p x s).mgr.adminClaim = s.mgr.adminClaim := rfl
@[simp] theorem setSession_resetInFlight (p : Port) (x : Session) (s : State) :
    (setSession p x s).mgr.resetInFlight = s.mgr.resetInFlight := rfl
@[simp] theorem setSession_inbox (p : Port) (x : Session) (s : State) : (setSession p x s).mgr.inbox = s.mgr.inbox := rfl
@[simp] theorem setSession_handed (p : Port) (x : Session) (s : State) : (setSession p x s).mgr.handed = s.mgr.handed := rfl

@[simp] theorem setInbox_sessions (p : Port) (rs : List Queued) (s : State) : (setInbox p rs s).mgr.sessions = s.mgr.sessions := rfl
@[simp] theorem setInbox_adminClaim (p : Port) (rs : List Queued) (s : State) : (setInbox p rs s).mgr.adminClaim = s.mgr.adminClaim := rfl
@[simp] theorem setInbox_resetInFlight (p : Port) (rs : List Queued) (s : State) :
    (setInbox p rs s).mgr.resetInFlight = s.mgr.resetInFlight := rfl
@[simp] theorem setInbox_handed (p : Port) (rs : List Queued) (s : State) : (setInbox p rs s).mgr.handed = s.mgr.handed := rfl
@[simp] theorem setInbox_inbox_same (p : Port) (rs : List Queued) (s : State) : (setInbox p rs s).mgr.inbox.get p = rs := by
  simp only [setInbox, PerPort.get_set_same]
@[simp] theorem setInbox_inbox_ne {p q : Port} (h : q ≠ p) (rs : List Queued) (s : State) :
    (setInbox p rs s).mgr.inbox.get q = s.mgr.inbox.get q := by
  simp only [setInbox, PerPort.get_set_ne _ h]
@[simp] theorem sessionOf_setInbox (p q : Port) (rs : List Queued) (s : State) : sessionOf (setInbox p rs s) q = sessionOf s q := rfl

@[simp] theorem setHanded_sessions (p : Port) (h : Option Handed) (s : State) : (setHanded p h s).mgr.sessions = s.mgr.sessions := rfl
@[simp] theorem setHanded_adminClaim (p : Port) (h : Option Handed) (s : State) : (setHanded p h s).mgr.adminClaim = s.mgr.adminClaim := rfl
@[simp] theorem setHanded_resetInFlight (p : Port) (h : Option Handed) (s : State) :
    (setHanded p h s).mgr.resetInFlight = s.mgr.resetInFlight := rfl
@[simp] theorem setHanded_inbox (p : Port) (h : Option Handed) (s : State) : (setHanded p h s).mgr.inbox = s.mgr.inbox := rfl
@[simp] theorem setHanded_handed_same (p : Port) (h : Option Handed) (s : State) : (setHanded p h s).mgr.handed.get p = h := by
  simp only [setHanded, PerPort.get_set_same]
@[simp] theorem setHanded_handed_ne {p q : Port} (hq : q ≠ p) (h : Option Handed) (s : State) :
    (setHanded p h s).mgr.handed.get q = s.mgr.handed.get q := by
  simp only [setHanded, PerPort.get_set_ne _ hq]
@[simp] theorem sessionOf_setHanded (p q : Port) (h : Option Handed) (s : State) : sessionOf (setHanded p h s) q = sessionOf s q := rfl

@[simp] theorem setSnapshot_waiting (p : Port) (x : Option SnapshotInFlight) (s : State) :
    (setSnapshot p x s).disp.waiting = s.disp.waiting := rfl
@[simp] theorem setSnapshot_get_same (p : Port) (x : Option SnapshotInFlight) (s : State) : (setSnapshot p x s).disp.snapshots.get p = x := by
  simp only [setSnapshot, PerPort.get_set_same]
@[simp] theorem setSnapshot_get_ne {p q : Port} (h : q ≠ p) (x : Option SnapshotInFlight) (s : State) :
    (setSnapshot p x s).disp.snapshots.get q = s.disp.snapshots.get q := by
  simp only [setSnapshot, PerPort.get_set_ne _ h]

/-! ## The session tests read the session records alone -/

theorem sessionOf_congr {s t : State} (h : t.mgr.sessions = s.mgr.sessions) (p : Port) : sessionOf t p = sessionOf s p := by
  simp only [sessionOf, h]

theorem isOpen_congr {s t : State} (h : t.mgr.sessions = s.mgr.sessions) (p : Port) : isOpen t p = isOpen s p := by
  simp only [isOpen, sessionOf_congr h]

theorem isLive_congr {s t : State} (h : t.mgr.sessions = s.mgr.sessions) (p : Port) (n : Nat) : isLive t p n = isLive s p n := by
  simp only [isLive, isOpen_congr h, sessionOf_congr h]

theorem requestLive_congr {s t : State} (h : t.mgr.sessions = s.mgr.sessions) (r : Request) : requestLive t r = requestLive s r := by
  simp only [requestLive, isLive_congr h]

theorem adminPort_congr {s t : State} (h : t.mgr.sessions = s.mgr.sessions) : adminPort t = adminPort s := by
  simp only [adminPort, isOpen_congr h, sessionOf_congr h]

/-! ## Timers -/

@[simp] theorem Timer.running_start (t : Timer) (ms : Nat) : (t.start ms).running = true := rfl
@[simp] theorem Timer.running_stop (t : Timer) : t.stop.running = false := rfl
@[simp] theorem Timer.running_atReset : Timer.atReset.running = false := rfl

end Sys2Proof.Machine
end

