-- ==== Sys2Proof/Laws/Transmit.lean ====
section
/-! SUPPORT. Everything a choice of frame can do (R132): it changes one port's Link Unit and Delivery Unit, puts the line to SENDING, keeps what the Link Unit
received, and loses no reply. -/

namespace Sys2Proof.Machine

/-- What a choice of frame keeps of a Link Unit: what it received, its RTO, the places held; and a reply that waited or was sent still waits or is sent. -/
structure Link.Chosen (l l' : Link) : Prop where
  lastAccepted : l'.lastAccepted = l.lastAccepted
  openMark : l'.openMark = l.openMark
  framer : l'.framer = l.framer
  rto : l'.rto = l.rto
  held : l'.held = l.held
  line : l'.line.isIdle = false
  replies : ∀ r, (r ∈ l.replies ∨ ∃ f ∈ l.resend, f.body = .reply r) → r ∈ l'.replies ∨ ∃ f ∈ l'.resend, f.body = .reply r

/-- What a choice of frame makes of a Delivery Unit: nothing, or one composition. -/
def Delivery.Chosen (number frame : Word16) (d d' : Delivery) : Prop := d' = d ∨ d' = d.afterNotice ∨ d' = d.afterReport number frame

theorem rank1_spec {l l' : Link} (h : rank1 l = some l') : Link.Chosen l l' := by
  unfold rank1 at h
  split at h
  · split at h
    · simp only [Option.some.injEq] at h
      subst h
      exact ⟨rfl, rfl, rfl, rfl, rfl, rfl, fun _ h => h⟩
    · exact absurd h (by simp)
  · exact absurd h (by simp)

theorem rank2_spec {l l' : Link} (h : rank2 l = some l') : Link.Chosen l l' := by
  unfold rank2 at h
  split at h
  · simp only [Option.some.injEq] at h
    subst h
    exact ⟨rfl, rfl, rfl, rfl, rfl, rfl, fun _ h => h⟩
  · exact absurd h (by simp)

theorem rank3_spec {l l' : Link} (h : rank3 l = some l') : Link.Chosen l l' := by
  unfold rank3 at h
  split at h
  · simp only [Option.some.injEq] at h
    subst h
    exact ⟨rfl, rfl, rfl, rfl, rfl, rfl, fun _ h => h⟩
  · exact absurd h (by simp)

theorem rank5_spec {l l' : Link} (h : rank5 l = some l') : Link.Chosen l l' := by
  unfold rank5 at h
  split at h
  · simp only [Option.some.injEq] at h
    subst h
    exact ⟨rfl, rfl, rfl, rfl, rfl, rfl, fun _ h => h⟩
  · exact absurd h (by simp)

theorem rank4_spec {number frame : Word16} {l : Link} {d : Delivery} {x : Link × Delivery} (h : rank4 number frame l d = some x) :
    Link.Chosen l x.1 ∧ Delivery.Chosen number frame d x.2 := by
  unfold rank4 at h
  split at h
  · split at h
    · split at h
      · rename_i r rest hr
        simp only [Option.some.injEq] at h
        subst h
        refine ⟨⟨rfl, rfl, rfl, rfl, rfl, rfl, ?_⟩, Or.inl rfl⟩
        intro y hy
        rcases hy with hy | ⟨f, hf, hb⟩
        · rw [hr] at hy
          rcases List.mem_cons.1 hy with rfl | hy
          · exact Or.inr ⟨⟨l.nextSeq, .reply y⟩, by simp [Link.sendNew, Link.send], rfl⟩
          · exact Or.inl hy
        · exact Or.inr ⟨f, by simp [Link.sendNew, Link.send, hf], hb⟩
      · exact absurd h (by simp)
    · simp only [Option.some.injEq] at h
      subst h
      refine ⟨⟨rfl, rfl, rfl, rfl, rfl, rfl, ?_⟩, Or.inr (Or.inl rfl)⟩
      intro y hy
      rcases hy with hy | ⟨f, hf, hb⟩
      · exact Or.inl hy
      · exact Or.inr ⟨f, by simp [Link.sendNew, Link.send, hf], hb⟩
    · simp only [Option.some.injEq] at h
      subst h
      refine ⟨⟨rfl, rfl, rfl, rfl, rfl, rfl, ?_⟩, Or.inr (Or.inr rfl)⟩
      intro y hy
      rcases hy with hy | ⟨f, hf, hb⟩
      · exact Or.inl hy
      · exact Or.inr ⟨f, by simp [Link.sendNew, Link.send, hf], hb⟩
    · exact absurd h (by simp)
  · exact absurd h (by simp)

/-- Everything a choice at one port can do. -/
theorem choice_spec {number frame : Word16} {l : Link} {d : Delivery} {x : Link × Delivery} (h : choice number frame l d = some x) :
    Link.Chosen l x.1 ∧ Delivery.Chosen number frame d x.2 := by
  unfold choice at h
  split at h
  · rename_i l' h1
    cases h
    exact ⟨rank1_spec h1, Or.inl rfl⟩
  · split at h
    · rename_i l' h1
      cases h
      exact ⟨rank2_spec h1, Or.inl rfl⟩
    · split at h
      · rename_i l' h1
        cases h
        exact ⟨rank3_spec h1, Or.inl rfl⟩
      · split at h
        · rename_i y h1
          cases h
          exact rank4_spec h1
        · cases h5 : rank5 l with
          | none =>
            rw [h5] at h
            exact absurd h (by simp)
          | some l' =>
            rw [h5] at h
            cases h
            exact ⟨rank5_spec h5, Or.inl rfl⟩

/-- Everything a choice of frame can do to the state. -/
theorem chooseFrame_spec {p : Port} {s s' : State} (h : chooseFrame p s = some s') :
    ∃ l d, s' = setPort p l d s ∧ Link.Chosen (s.link.get p) l ∧
      Delivery.Chosen s.keys.transition s.scan.frameNumber (s.delivery.get p) d := by
  unfold chooseFrame at h
  cases hc : choice s.keys.transition s.scan.frameNumber (s.link.get p) (s.delivery.get p) with
  | none =>
    rw [hc] at h
    exact absurd h (by simp)
  | some x =>
    rw [hc] at h
    cases h
    exact ⟨x.1, x.2, rfl, choice_spec hc⟩

/-- Whether there is something to choose depends on the port's Link Unit and Delivery Unit alone. -/
theorem choice_none_congr {n f n' f' : Word16} {l : Link} {d : Delivery} (h : choice n f l d = none) : choice n' f' l d = none := by
  unfold choice at h ⊢
  cases h1 : rank1 l with
  | some _ => simp [h1] at h
  | none =>
    cases h2 : rank2 l with
    | some _ => simp [h1, h2] at h
    | none =>
      cases h3 : rank3 l with
      | some _ => simp [h1, h2, h3] at h
      | none =>
        simp only [h1, h2, h3] at h ⊢
        have h4 : rank4 n f l d = none := by
          cases h4 : rank4 n f l d with
          | none => rfl
          | some y =>
            rw [h4] at h
            exact absurd h (by simp)
        have h4' : rank4 n' f' l d = none := by
          unfold rank4 at h4 ⊢
          split
          · rename_i hb
            rw [if_pos hb] at h4
            split
            · rename_i hn
              rw [hn] at h4
              exact h4
            · rename_i hn
              rw [hn] at h4
              exact absurd h4 (by simp)
            · rename_i hn
              rw [hn] at h4
              exact absurd h4 (by simp)
            · rfl
          · rfl
        rw [h4] at h
        rw [h4']
        exact h

theorem chooseFrame_eq_none {p : Port} {s : State} :
    chooseFrame p s = none ↔ choice s.keys.transition s.scan.frameNumber (s.link.get p) (s.delivery.get p) = none := by
  simp only [chooseFrame, Option.map_eq_none_iff]

theorem chooseFrame_none_congr {p : Port} {s t : State} (hl : t.link.get p = s.link.get p) (hd : t.delivery.get p = s.delivery.get p)
    (h : chooseFrame p s = none) : chooseFrame p t = none := by
  rw [chooseFrame_eq_none] at h ⊢
  rw [hl, hd]
  exact choice_none_congr h

/-- Everything serving a port can do: nothing, on a line that is SENDING or with nothing to choose; or a choice. -/
theorem serve_spec (p : Port) (s : State) :
    serve p s = s ∨
      ∃ l d, serve p s = setPort p l d s ∧ lineIdle p s = true ∧ Link.Chosen (s.link.get p) l ∧
        Delivery.Chosen s.keys.transition s.scan.frameNumber (s.delivery.get p) d := by
  unfold serve
  split
  · rename_i hi
    cases h : chooseFrame p s with
    | none => exact Or.inl rfl
    | some s' =>
      obtain ⟨l, d, rfl, hl, hd⟩ := chooseFrame_spec h
      exact Or.inr ⟨l, d, rfl, hi, hl, hd⟩
  · exact Or.inl rfl

/-- Serving a port replaces its two units and nothing else. -/
theorem serve_eq (p : Port) (s : State) : serve p s = setPort p ((serve p s).link.get p) ((serve p s).delivery.get p) s := by
  rcases serve_spec p s with h | ⟨l, d, h, _⟩
  · rw [h, setPort_self]
  · rw [h, setPort_link_same, setPort_delivery_same]

theorem serve_busy {p : Port} {s : State} (h : lineIdle p s = false) : serve p s = s := by
  unfold serve
  rw [h]
  rfl

theorem serve_nothing {p : Port} {s : State} (h : chooseFrame p s = none) : serve p s = s := by
  unfold serve
  rw [h]
  split <;> rfl

/-- After a port has been served, its line is SENDING or it has nothing to choose. -/
theorem serve_settles (p : Port) (s : State) (h : lineIdle p (serve p s) = true) : chooseFrame p (serve p s) = none := by
  cases hi : lineIdle p s with
  | false =>
    rw [serve_busy hi, hi] at h
    exact absurd h (by decide)
  | true =>
    cases hc : chooseFrame p s with
    | none =>
      rw [serve_nothing hc]
      exact hc
    | some s' =>
      have hs : serve p s = s' := by
        unfold serve
        rw [hi, hc]
        rfl
      obtain ⟨l, d, rfl, hl, _⟩ := chooseFrame_spec hc
      rw [hs] at h
      simp only [lineIdle, setPort_link_same] at h
      rw [hl.line] at h
      exact absurd h (by decide)

/-! ## What serving keeps -/

@[simp] theorem serve_scan (p : Port) (s : State) : (serve p s).scan = s.scan := by rw [serve_eq]; rfl

@[simp] theorem serve_keys (p : Port) (s : State) : (serve p s).keys = s.keys := by rw [serve_eq]; rfl

@[simp] theorem serve_groups (p : Port) (s : State) : (serve p s).groups = s.groups := by rw [serve_eq]; rfl

@[simp] theorem serve_disp (p : Port) (s : State) : (serve p s).disp = s.disp := by rw [serve_eq]; rfl

@[simp] theorem serve_lamps (p : Port) (s : State) : (serve p s).lamps = s.lamps := by rw [serve_eq]; rfl

@[simp] theorem serve_mgr (p : Port) (s : State) : (serve p s).mgr = s.mgr := by rw [serve_eq]; rfl

@[simp] theorem serve_pins (p : Port) (s : State) : (serve p s).pins = s.pins := by rw [serve_eq]; rfl

@[simp] theorem serve_races (p : Port) (s : State) : (serve p s).races = s.races := by rw [serve_eq]; rfl

@[simp] theorem serve_pending (p : Port) (s : State) : (serve p s).pending = s.pending := by rw [serve_eq]; rfl

@[simp] theorem serve_link_ne {p q : Port} (h : q ≠ p) (s : State) : (serve p s).link.get q = s.link.get q := by
  rw [serve_eq, setPort_link_ne h]

@[simp] theorem serve_delivery_ne {p q : Port} (h : q ≠ p) (s : State) : (serve p s).delivery.get q = s.delivery.get q := by
  rw [serve_eq, setPort_delivery_ne h]

@[simp] theorem lineIdle_serve_ne {p q : Port} (h : q ≠ p) (s : State) : lineIdle q (serve p s) = lineIdle q s := by
  simp only [lineIdle, serve_link_ne h]

@[simp] theorem sessionOf_serve (p q : Port) (s : State) : sessionOf (serve p s) q = sessionOf s q := by simp only [sessionOf, serve_mgr]

@[simp] theorem serveAll_scan (s : State) : (serveAll s).scan = s.scan := by simp only [serveAll, serve_scan]

@[simp] theorem serveAll_keys (s : State) : (serveAll s).keys = s.keys := by simp only [serveAll, serve_keys]

@[simp] theorem serveAll_groups (s : State) : (serveAll s).groups = s.groups := by simp only [serveAll, serve_groups]

@[simp] theorem serveAll_disp (s : State) : (serveAll s).disp = s.disp := by simp only [serveAll, serve_disp]

@[simp] theorem serveAll_lamps (s : State) : (serveAll s).lamps = s.lamps := by simp only [serveAll, serve_lamps]

@[simp] theorem serveAll_mgr (s : State) : (serveAll s).mgr = s.mgr := by simp only [serveAll, serve_mgr]

@[simp] theorem serveAll_pins (s : State) : (serveAll s).pins = s.pins := by simp only [serveAll, serve_pins]

@[simp] theorem serveAll_races (s : State) : (serveAll s).races = s.races := by simp only [serveAll, serve_races]

@[simp] theorem serveAll_pending (s : State) : (serveAll s).pending = s.pending := by simp only [serveAll, serve_pending]

/-- What serving makes of a port's two units depends on those units, the transition counter and the frame number alone. -/
theorem serve_units_congr {p : Port} {s t : State} (hl : t.link.get p = s.link.get p) (hd : t.delivery.get p = s.delivery.get p)
    (hn : t.keys.transition = s.keys.transition) (hf : t.scan.frameNumber = s.scan.frameNumber) :
    (serve p t).link.get p = (serve p s).link.get p ∧ (serve p t).delivery.get p = (serve p s).delivery.get p := by
  unfold serve chooseFrame lineIdle
  rw [hl, hd, hn, hf]
  split
  · cases choice s.keys.transition s.scan.frameNumber (s.link.get p) (s.delivery.get p) with
    | none => exact ⟨hl, hd⟩
    | some x => simp
  · exact ⟨hl, hd⟩

/-- Serving every port does to a port's units what serving that port does. -/
theorem serveAll_units (p : Port) (s : State) :
    (serveAll s).link.get p = (serve p s).link.get p ∧ (serveAll s).delivery.get p = (serve p s).delivery.get p := by
  unfold serveAll
  cases p
  · simp only [serve_link_ne (p := .p2) (q := .p0) (by decide), serve_link_ne (p := .p1) (q := .p0) (by decide),
      serve_delivery_ne (p := .p2) (q := .p0) (by decide), serve_delivery_ne (p := .p1) (q := .p0) (by decide), and_self]
  · simp only [serve_link_ne (p := .p2) (q := .p1) (by decide), serve_delivery_ne (p := .p2) (q := .p1) (by decide)]
    exact serve_units_congr (serve_link_ne (by decide) s) (serve_delivery_ne (by decide) s) (by simp only [serve_keys])
      (by simp only [serve_scan])
  · exact serve_units_congr (by rw [serve_link_ne (by decide), serve_link_ne (by decide)])
      (by rw [serve_delivery_ne (by decide), serve_delivery_ne (by decide)]) (by simp only [serve_keys]) (by simp only [serve_scan])

/-- Where no IDLE transmitter has anything to choose, serving every port does nothing. -/
theorem serveAll_nothing {s : State} (h : ∀ p, lineIdle p s = true → chooseFrame p s = none) : serveAll s = s := by
  have h1 : ∀ p, serve p s = s := by
    intro p
    cases hi : lineIdle p s with
    | false => exact serve_busy hi
    | true => exact serve_nothing (h p hi)
  simp only [serveAll, h1]

/-- After every port has been served, no IDLE transmitter has anything to choose. -/
theorem serveAll_settles (s : State) (p : Port) (h : lineIdle p (serveAll s) = true) : chooseFrame p (serveAll s) = none := by
  have hu := serveAll_units p s
  have hi : lineIdle p (serve p s) = true := by
    simp only [lineIdle] at h ⊢
    rw [← hu.1]
    exact h
  exact chooseFrame_none_congr hu.1 hu.2 (serve_settles p s hi)

/-! ## A meeting -/

/-- Everything a meeting can do: nothing, or count and perhaps choose. -/
theorem raceChoice_spec (p : Port) (s : State) :
    raceChoice p s = s ∨ raceChoice p s = { s with races := s.races + 1 } ∨
      ∃ l d, raceChoice p s = { setPort p l d s with races := s.races + 1 } ∧ lineIdle p s = true ∧
        Link.Chosen (s.link.get p) l ∧ Delivery.Chosen s.keys.transition s.scan.frameNumber (s.delivery.get p) d := by
  unfold raceChoice
  split
  · rename_i hi
    cases h : chooseFrame p s with
    | none => exact Or.inl rfl
    | some s' =>
      simp only
      split
      · obtain ⟨l, d, rfl, hl, hd⟩ := chooseFrame_spec h
        exact Or.inr (Or.inr ⟨l, d, rfl, hi, hl, hd⟩)
      · exact Or.inr (Or.inl rfl)
  · exact Or.inl rfl

theorem raceChoice_busy {p : Port} {s : State} (h : lineIdle p s = false) : raceChoice p s = s := by
  unfold raceChoice
  rw [h]
  rfl

theorem raceChoice_nothing {p : Port} {s : State} (h : chooseFrame p s = none) : raceChoice p s = s := by
  unfold raceChoice
  rw [h]
  split <;> rfl

/-- A meeting changes the port's two units and the count of meetings alone. -/
theorem raceChoice_eq (p : Port) (s : State) :
    raceChoice p s =
      { setPort p ((raceChoice p s).link.get p) ((raceChoice p s).delivery.get p) s with races := (raceChoice p s).races } := by
  rcases raceChoice_spec p s with h | h | ⟨l, d, h, _⟩
  · rw [h, setPort_self]
  · rw [h]
    simp only [setPort, PerPort.set_get]
  · rw [h]
    simp only [setPort, PerPort.get_set_same]

@[simp] theorem raceChoice_scan (p : Port) (s : State) : (raceChoice p s).scan = s.scan := by rw [raceChoice_eq]; rfl

@[simp] theorem raceChoice_keys (p : Port) (s : State) : (raceChoice p s).keys = s.keys := by rw [raceChoice_eq]; rfl

@[simp] theorem raceChoice_groups (p : Port) (s : State) : (raceChoice p s).groups = s.groups := by rw [raceChoice_eq]; rfl

@[simp] theorem raceChoice_disp (p : Port) (s : State) : (raceChoice p s).disp = s.disp := by rw [raceChoice_eq]; rfl

@[simp] theorem raceChoice_lamps (p : Port) (s : State) : (raceChoice p s).lamps = s.lamps := by rw [raceChoice_eq]; rfl

@[simp] theorem raceChoice_mgr (p : Port) (s : State) : (raceChoice p s).mgr = s.mgr := by rw [raceChoice_eq]; rfl

@[simp] theorem raceChoice_pins (p : Port) (s : State) : (raceChoice p s).pins = s.pins := by rw [raceChoice_eq]; rfl

@[simp] theorem raceChoice_pending (p : Port) (s : State) : (raceChoice p s).pending = s.pending := by rw [raceChoice_eq]; rfl

@[simp] theorem raceChoice_link_ne {p q : Port} (h : q ≠ p) (s : State) : (raceChoice p s).link.get q = s.link.get q := by
  rw [raceChoice_eq]
  simp only [setPort, PerPort.get_set_ne _ h]

@[simp] theorem raceChoice_delivery_ne {p q : Port} (h : q ≠ p) (s : State) : (raceChoice p s).delivery.get q = s.delivery.get q := by
  rw [raceChoice_eq]
  simp only [setPort, PerPort.get_set_ne _ h]

@[simp] theorem sessionOf_raceChoice (p q : Port) (s : State) : sessionOf (raceChoice p s) q = sessionOf s q := by
  simp only [sessionOf, raceChoice_mgr]

end Sys2Proof.Machine
end

