-- ==== Sys2Proof/Laws/Ops.lean ====
section
/-! SUPPORT. What the shared operations of Machine/Ops.lean do and keep: posts, replies, blanking, the removal of a port, the teardown, the full reset. -/

namespace Sys2Proof.Machine

/-! ## Posts (R64) -/

/-- Everything a post can do. -/
theorem post_spec (p : Port) (f : Delivery → Delivery) (s : State) :
    (isOpen s p = true ∧ post p f s = updDelivery p f s) ∨ (isOpen s p = false ∧ post p f s = s) := by
  unfold post
  cases h : isOpen s p with
  | true => exact Or.inl ⟨rfl, rfl⟩
  | false => exact Or.inr ⟨rfl, rfl⟩

theorem post_open {p : Port} {s : State} (h : isOpen s p = true) (f : Delivery → Delivery) : post p f s = updDelivery p f s := by
  simp only [post, h, if_true]

@[simp] theorem post_scan (p : Port) (f : Delivery → Delivery) (s : State) : (post p f s).scan = s.scan := by
  rcases post_spec p f s with ⟨_, h⟩ | ⟨_, h⟩ <;> rw [h]
  rfl

@[simp] theorem post_keys (p : Port) (f : Delivery → Delivery) (s : State) : (post p f s).keys = s.keys := by
  rcases post_spec p f s with ⟨_, h⟩ | ⟨_, h⟩ <;> rw [h]
  rfl

@[simp] theorem post_groups (p : Port) (f : Delivery → Delivery) (s : State) : (post p f s).groups = s.groups := by
  rcases post_spec p f s with ⟨_, h⟩ | ⟨_, h⟩ <;> rw [h]
  rfl

@[simp] theorem post_disp (p : Port) (f : Delivery → Delivery) (s : State) : (post p f s).disp = s.disp := by
  rcases post_spec p f s with ⟨_, h⟩ | ⟨_, h⟩ <;> rw [h]
  rfl

@[simp] theorem post_lamps (p : Port) (f : Delivery → Delivery) (s : State) : (post p f s).lamps = s.lamps := by
  rcases post_spec p f s with ⟨_, h⟩ | ⟨_, h⟩ <;> rw [h]
  rfl

@[simp] theorem post_link (p : Port) (f : Delivery → Delivery) (s : State) : (post p f s).link = s.link := by
  rcases post_spec p f s with ⟨_, h⟩ | ⟨_, h⟩ <;> rw [h]
  rfl

@[simp] theorem post_mgr (p : Port) (f : Delivery → Delivery) (s : State) : (post p f s).mgr = s.mgr := by
  rcases post_spec p f s with ⟨_, h⟩ | ⟨_, h⟩ <;> rw [h]
  rfl

@[simp] theorem post_pins (p : Port) (f : Delivery → Delivery) (s : State) : (post p f s).pins = s.pins := by
  rcases post_spec p f s with ⟨_, h⟩ | ⟨_, h⟩ <;> rw [h]
  rfl

@[simp] theorem post_races (p : Port) (f : Delivery → Delivery) (s : State) : (post p f s).races = s.races := by
  rcases post_spec p f s with ⟨_, h⟩ | ⟨_, h⟩ <;> rw [h]
  rfl

@[simp] theorem post_pending (p : Port) (f : Delivery → Delivery) (s : State) : (post p f s).pending = s.pending := by
  rcases post_spec p f s with ⟨_, h⟩ | ⟨_, h⟩ <;> rw [h]
  rfl

@[simp] theorem post_delivery_ne {p q : Port} (h : q ≠ p) (f : Delivery → Delivery) (s : State) :
    (post p f s).delivery.get q = s.delivery.get q := by
  rcases post_spec p f s with ⟨_, hp⟩ | ⟨_, hp⟩ <;> rw [hp]
  exact updDelivery_get_ne h f s

theorem post_delivery_same (p : Port) (f : Delivery → Delivery) (s : State) :
    (post p f s).delivery.get p = if isOpen s p then f (s.delivery.get p) else s.delivery.get p := by
  rcases post_spec p f s with ⟨ho, hp⟩ | ⟨ho, hp⟩ <;> rw [hp, ho]
  · simp only [updDelivery_get_same, if_true]
  · rfl

@[simp] theorem postScanState_scan (s : State) : (postScanState s).scan = s.scan := by
  unfold postScanState
  split
  · exact post_scan _ _ s
  · rfl

@[simp] theorem postScanState_keys (s : State) : (postScanState s).keys = s.keys := by
  unfold postScanState
  split
  · exact post_keys _ _ s
  · rfl

@[simp] theorem postScanState_groups (s : State) : (postScanState s).groups = s.groups := by
  unfold postScanState
  split
  · exact post_groups _ _ s
  · rfl

@[simp] theorem postScanState_disp (s : State) : (postScanState s).disp = s.disp := by
  unfold postScanState
  split
  · exact post_disp _ _ s
  · rfl

@[simp] theorem postScanState_lamps (s : State) : (postScanState s).lamps = s.lamps := by
  unfold postScanState
  split
  · exact post_lamps _ _ s
  · rfl

@[simp] theorem postScanState_link (s : State) : (postScanState s).link = s.link := by
  unfold postScanState
  split
  · exact post_link _ _ s
  · rfl

@[simp] theorem postScanState_mgr (s : State) : (postScanState s).mgr = s.mgr := by
  unfold postScanState
  split
  · exact post_mgr _ _ s
  · rfl

@[simp] theorem postScanState_pins (s : State) : (postScanState s).pins = s.pins := by
  unfold postScanState
  split
  · exact post_pins _ _ s
  · rfl

@[simp] theorem postScanState_races (s : State) : (postScanState s).races = s.races := by
  unfold postScanState
  split
  · exact post_races _ _ s
  · rfl

@[simp] theorem postScanState_pending (s : State) : (postScanState s).pending = s.pending := by
  unfold postScanState
  split
  · exact post_pending _ _ s
  · rfl

/-! ## Replies (R119) -/

/-- Everything the production of a reply can do. -/
theorem produce_spec (p : Port) (r : Reply) (s : State) :
    (isLive s p r.session = true ∧ 0 < (s.link.get p).held ∧
        produce p r s = updLink p (fun l => { l with held := l.held - 1, replies := l.replies ++ [r] }) s) ∨
      produce p r s = s := by
  unfold produce
  split
  · rename_i h
    simp only [Bool.and_eq_true, decide_eq_true_eq] at h
    exact Or.inl ⟨h.1, h.2, rfl⟩
  · exact Or.inr rfl

theorem produce_live {p : Port} {r : Reply} {s : State} (h : isLive s p r.session = true) (hh : 0 < (s.link.get p).held) :
    produce p r s = updLink p (fun l => { l with held := l.held - 1, replies := l.replies ++ [r] }) s := by
  simp only [produce, h, hh, decide_true, Bool.and_true, if_true]

@[simp] theorem produce_scan (p : Port) (r : Reply) (s : State) : (produce p r s).scan = s.scan := by
  rcases produce_spec p r s with ⟨_, _, h⟩ | h <;> rw [h]
  rfl

@[simp] theorem replyTo_scan (r : Request) (st : Status) (data : ReplyData) (s : State) : (replyTo r st data s).scan = s.scan :=
  produce_scan _ _ s

@[simp] theorem produce_keys (p : Port) (r : Reply) (s : State) : (produce p r s).keys = s.keys := by
  rcases produce_spec p r s with ⟨_, _, h⟩ | h <;> rw [h]
  rfl

@[simp] theorem replyTo_keys (r : Request) (st : Status) (data : ReplyData) (s : State) : (replyTo r st data s).keys = s.keys :=
  produce_keys _ _ s

@[simp] theorem produce_groups (p : Port) (r : Reply) (s : State) : (produce p r s).groups = s.groups := by
  rcases produce_spec p r s with ⟨_, _, h⟩ | h <;> rw [h]
  rfl

@[simp] theorem replyTo_groups (r : Request) (st : Status) (data : ReplyData) (s : State) : (replyTo r st data s).groups = s.groups :=
  produce_groups _ _ s

@[simp] theorem produce_disp (p : Port) (r : Reply) (s : State) : (produce p r s).disp = s.disp := by
  rcases produce_spec p r s with ⟨_, _, h⟩ | h <;> rw [h]
  rfl

@[simp] theorem replyTo_disp (r : Request) (st : Status) (data : ReplyData) (s : State) : (replyTo r st data s).disp = s.disp :=
  produce_disp _ _ s

@[simp] theorem produce_delivery (p : Port) (r : Reply) (s : State) : (produce p r s).delivery = s.delivery := by
  rcases produce_spec p r s with ⟨_, _, h⟩ | h <;> rw [h]
  rfl

@[simp] theorem replyTo_delivery (r : Request) (st : Status) (data : ReplyData) (s : State) : (replyTo r st data s).delivery = s.delivery :=
  produce_delivery _ _ s

@[simp] theorem produce_lamps (p : Port) (r : Reply) (s : State) : (produce p r s).lamps = s.lamps := by
  rcases produce_spec p r s with ⟨_, _, h⟩ | h <;> rw [h]
  rfl

@[simp] theorem replyTo_lamps (r : Request) (st : Status) (data : ReplyData) (s : State) : (replyTo r st data s).lamps = s.lamps :=
  produce_lamps _ _ s

@[simp] theorem produce_mgr (p : Port) (r : Reply) (s : State) : (produce p r s).mgr = s.mgr := by
  rcases produce_spec p r s with ⟨_, _, h⟩ | h <;> rw [h]
  rfl

@[simp] theorem replyTo_mgr (r : Request) (st : Status) (data : ReplyData) (s : State) : (replyTo r st data s).mgr = s.mgr :=
  produce_mgr _ _ s

@[simp] theorem produce_pins (p : Port) (r : Reply) (s : State) : (produce p r s).pins = s.pins := by
  rcases produce_spec p r s with ⟨_, _, h⟩ | h <;> rw [h]
  rfl

@[simp] theorem replyTo_pins (r : Request) (st : Status) (data : ReplyData) (s : State) : (replyTo r st data s).pins = s.pins :=
  produce_pins _ _ s

@[simp] theorem produce_races (p : Port) (r : Reply) (s : State) : (produce p r s).races = s.races := by
  rcases produce_spec p r s with ⟨_, _, h⟩ | h <;> rw [h]
  rfl

@[simp] theorem replyTo_races (r : Request) (st : Status) (data : ReplyData) (s : State) : (replyTo r st data s).races = s.races :=
  produce_races _ _ s

@[simp] theorem produce_pending (p : Port) (r : Reply) (s : State) : (produce p r s).pending = s.pending := by
  rcases produce_spec p r s with ⟨_, _, h⟩ | h <;> rw [h]
  rfl

@[simp] theorem replyTo_pending (r : Request) (st : Status) (data : ReplyData) (s : State) : (replyTo r st data s).pending = s.pending :=
  produce_pending _ _ s

@[simp] theorem produce_link_ne {p q : Port} (h : q ≠ p) (r : Reply) (s : State) : (produce p r s).link.get q = s.link.get q := by
  rcases produce_spec p r s with ⟨_, _, hp⟩ | hp <;> rw [hp]
  exact updLink_get_ne h _ s

@[simp] theorem replyTo_link_ne {q : Port} {r : Request} (h : q ≠ r.port) (st : Status) (data : ReplyData) (s : State) :
    (replyTo r st data s).link.get q = s.link.get q :=
  produce_link_ne h _ s

/-- What the production of a reply keeps of the Link Unit. -/
theorem produce_keeps (p : Port) (r : Reply) (s : State) :
    ((produce p r s).link.get p).framer = (s.link.get p).framer ∧ ((produce p r s).link.get p).line = (s.link.get p).line ∧
      ((produce p r s).link.get p).resend = (s.link.get p).resend ∧ ((produce p r s).link.get p).burst = (s.link.get p).burst ∧
      ((produce p r s).link.get p).lastAccepted = (s.link.get p).lastAccepted ∧
      ((produce p r s).link.get p).places = (s.link.get p).places := by
  rcases produce_spec p r s with ⟨_, hh, hp⟩ | hp <;> rw [hp]
  · simp only [updLink_get_same, Link.places, List.length_append, List.length_singleton, true_and]
    omega
  · simp only [and_self]

@[simp] theorem lineIdle_produce (p q : Port) (r : Reply) (s : State) : lineIdle q (produce p r s) = lineIdle q s := by
  simp only [lineIdle]
  by_cases h : q = p
  · subst h
    rw [(produce_keeps q r s).2.1]
  · rw [produce_link_ne h]

@[simp] theorem lineIdle_replyTo (q : Port) (r : Request) (st : Status) (data : ReplyData) (s : State) :
    lineIdle q (replyTo r st data s) = lineIdle q s :=
  lineIdle_produce _ q _ s

/-! ## Blanking and memberships (R56, R57, R107) -/

theorem LampRec.blank_group (l : LampRec) : l.blank.group = l.group := by
  unfold LampRec.blank
  split <;> rfl

theorem LampRec.blank_lit (l : LampRec) : l.blank.mode.lit = false := by
  unfold LampRec.blank
  split
  · rfl
  · rename_i h
    simpa using h

/-- What a blanking makes of one lamp. -/
theorem blank_get (g : Group) (s : State) (l : Lamp) :
    (blank g s).lamps[l] = if s.lamps[l].group = some g then s.lamps[l].blank else s.lamps[l] := by
  simp only [blank, Fin.getElem_fin, Vector.getElem_map]

theorem setGroup_get_same (g : Group) (r : GroupRec) (s : State) : (setGroup g r s).groups[g] = r := by
  simp only [setGroup, Fin.getElem_fin, Vector.getElem_set_self]

theorem setGroup_get_ne {g g' : Group} (h : g' ≠ g) (r : GroupRec) (s : State) : (setGroup g r s).groups[g'] = s.groups[g'] := by
  have hv : g.val ≠ g'.val := fun e => h (Fin.ext e.symm)
  simp only [setGroup, Fin.getElem_fin]
  exact Vector.getElem_set_ne _ _ hv

@[simp] theorem removeMember_scan (p : Port) (s : State) (g : Group) : (removeMember p s g).scan = s.scan := by
  unfold removeMember
  split
  · simp only
    split <;> rfl
  · rfl

@[simp] theorem removeMember_keys (p : Port) (s : State) (g : Group) : (removeMember p s g).keys = s.keys := by
  unfold removeMember
  split
  · simp only
    split <;> rfl
  · rfl

@[simp] theorem removeMember_disp (p : Port) (s : State) (g : Group) : (removeMember p s g).disp = s.disp := by
  unfold removeMember
  split
  · simp only
    split <;> rfl
  · rfl

@[simp] theorem removeMember_delivery (p : Port) (s : State) (g : Group) : (removeMember p s g).delivery = s.delivery := by
  unfold removeMember
  split
  · simp only
    split <;> rfl
  · rfl

@[simp] theorem removeMember_link (p : Port) (s : State) (g : Group) : (removeMember p s g).link = s.link := by
  unfold removeMember
  split
  · simp only
    split <;> rfl
  · rfl

@[simp] theorem removeMember_mgr (p : Port) (s : State) (g : Group) : (removeMember p s g).mgr = s.mgr := by
  unfold removeMember
  split
  · simp only
    split <;> rfl
  · rfl

@[simp] theorem removeMember_pins (p : Port) (s : State) (g : Group) : (removeMember p s g).pins = s.pins := by
  unfold removeMember
  split
  · simp only
    split <;> rfl
  · rfl

@[simp] theorem removeMember_races (p : Port) (s : State) (g : Group) : (removeMember p s g).races = s.races := by
  unfold removeMember
  split
  · simp only
    split <;> rfl
  · rfl

@[simp] theorem removeMember_pending (p : Port) (s : State) (g : Group) : (removeMember p s g).pending = s.pending := by
  unfold removeMember
  split
  · simp only
    split <;> rfl
  · rfl

/-- What the removal of a port from one group makes of the group records: the port's entry goes, all else stays. -/
theorem removeMember_groups (p : Port) (s : State) (g g' : Group) :
    (removeMember p s g).groups[g'] =
      if g' = g then { s.groups[g] with members := s.groups[g].members.set p none } else s.groups[g'] := by
  unfold removeMember
  split
  · have key : (setGroup g { s.groups[g] with members := s.groups[g].members.set p none } s).groups[g'] =
        if g' = g then { s.groups[g] with members := s.groups[g].members.set p none } else s.groups[g'] := by
      by_cases h : g' = g
      · subst h
        rw [setGroup_get_same, if_pos rfl]
      · rw [setGroup_get_ne h, if_neg h]
    simp only
    split
    · exact key
    · exact key
  · rename_i hm
    by_cases h : g' = g
    · subst h
      rw [if_pos rfl]
      have hn : s.groups[g'].members.get p = none := by
        simpa only [memberMode, Option.not_isSome_iff_eq_none] using hm
      have hs : s.groups[g'].members.set p none = s.groups[g'].members := by
        rw [← hn, PerPort.set_get]
      rw [hs]
    · rw [if_neg h]

theorem memberMode_removeMember (p q : Port) (s : State) (g g' : Group) :
    memberMode (removeMember p s g) g' q = if g' = g ∧ q = p then none else memberMode s g' q := by
  unfold memberMode
  rw [removeMember_groups]
  by_cases h : g' = g
  · subst h
    rw [if_pos rfl, PerPort.get_set]
    by_cases hq : q = p
    · rw [if_pos hq, if_pos ⟨rfl, hq⟩]
    · rw [if_neg hq, if_neg (fun hc => hq hc.2)]
  · rw [if_neg h, if_neg (fun hc => h hc.1)]

/-- What the removal of a port from a list of groups makes of the group records. -/
theorem foldl_removeMember_groups (p : Port) (gs : List Group) (s : State) (g' : Group) :
    (gs.foldl (removeMember p) s).groups[g'] =
      if g' ∈ gs then { s.groups[g'] with members := s.groups[g'].members.set p none } else s.groups[g'] := by
  induction gs generalizing s with
  | nil => simp
  | cons g gs ih =>
    rw [List.foldl_cons, ih, removeMember_groups]
    by_cases hg : g' = g
    · subst hg
      simp only [List.mem_cons, true_or, if_true, PerPort.set_set]
      split <;> rfl
    · simp only [List.mem_cons, hg, false_or, if_false]

@[simp] theorem removePort_scan (p : Port) (s : State) : (removePort p s).scan = s.scan := by
  unfold removePort
  induction List.finRange 32 generalizing s with
  | nil => rfl
  | cons g gs ih => rw [List.foldl_cons, ih, removeMember_scan]

@[simp] theorem removePort_keys (p : Port) (s : State) : (removePort p s).keys = s.keys := by
  unfold removePort
  induction List.finRange 32 generalizing s with
  | nil => rfl
  | cons g gs ih => rw [List.foldl_cons, ih, removeMember_keys]

@[simp] theorem removePort_disp (p : Port) (s : State) : (removePort p s).disp = s.disp := by
  unfold removePort
  induction List.finRange 32 generalizing s with
  | nil => rfl
  | cons g gs ih => rw [List.foldl_cons, ih, removeMember_disp]

@[simp] theorem removePort_delivery (p : Port) (s : State) : (removePort p s).delivery = s.delivery := by
  unfold removePort
  induction List.finRange 32 generalizing s with
  | nil => rfl
  | cons g gs ih => rw [List.foldl_cons, ih, removeMember_delivery]

@[simp] theorem removePort_link (p : Port) (s : State) : (removePort p s).link = s.link := by
  unfold removePort
  induction List.finRange 32 generalizing s with
  | nil => rfl
  | cons g gs ih => rw [List.foldl_cons, ih, removeMember_link]

@[simp] theorem removePort_mgr (p : Port) (s : State) : (removePort p s).mgr = s.mgr := by
  unfold removePort
  induction List.finRange 32 generalizing s with
  | nil => rfl
  | cons g gs ih => rw [List.foldl_cons, ih, removeMember_mgr]

@[simp] theorem removePort_pins (p : Port) (s : State) : (removePort p s).pins = s.pins := by
  unfold removePort
  induction List.finRange 32 generalizing s with
  | nil => rfl
  | cons g gs ih => rw [List.foldl_cons, ih, removeMember_pins]

@[simp] theorem removePort_races (p : Port) (s : State) : (removePort p s).races = s.races := by
  unfold removePort
  induction List.finRange 32 generalizing s with
  | nil => rfl
  | cons g gs ih => rw [List.foldl_cons, ih, removeMember_races]

@[simp] theorem removePort_pending (p : Port) (s : State) : (removePort p s).pending = s.pending := by
  unfold removePort
  induction List.finRange 32 generalizing s with
  | nil => rfl
  | cons g gs ih => rw [List.foldl_cons, ih, removeMember_pending]

/-- What the removal of a port makes of the group records: its entry goes from every one, all else stays (R57). -/
theorem removePort_groups (p : Port) (s : State) (g : Group) :
    (removePort p s).groups[g] = { s.groups[g] with members := s.groups[g].members.set p none } := by
  unfold removePort
  rw [foldl_removeMember_groups, if_pos (List.mem_finRange g)]

theorem memberMode_removePort (p q : Port) (s : State) (g : Group) :
    memberMode (removePort p s) g q = if q = p then none else memberMode s g q := by
  unfold memberMode
  rw [removePort_groups, PerPort.get_set]

/-! ## Teardown (R148) -/

@[simp] theorem teardown_scan (p : Port) (st : SessionState) (s : State) : (teardown p st s).scan = s.scan := by
  simp only [teardown, updDelivery_scan, removePort_scan, setInbox_scan, setSession_scan]

@[simp] theorem teardown_keys (p : Port) (st : SessionState) (s : State) : (teardown p st s).keys = s.keys := by
  simp only [teardown, updDelivery_keys, removePort_keys, setInbox_keys, setSession_keys]

@[simp] theorem teardown_disp (p : Port) (st : SessionState) (s : State) : (teardown p st s).disp = s.disp := by
  simp only [teardown, updDelivery_disp, removePort_disp, setInbox_disp, setSession_disp]

@[simp] theorem teardown_link (p : Port) (st : SessionState) (s : State) : (teardown p st s).link = s.link := by
  simp only [teardown, updDelivery_link, removePort_link, setInbox_link, setSession_link]

@[simp] theorem teardown_pins (p : Port) (st : SessionState) (s : State) : (teardown p st s).pins = s.pins := by
  simp only [teardown, updDelivery_pins, removePort_pins, setInbox_pins, setSession_pins]

@[simp] theorem teardown_races (p : Port) (st : SessionState) (s : State) : (teardown p st s).races = s.races := by
  simp only [teardown, updDelivery_races, removePort_races, setInbox_races, setSession_races]

@[simp] theorem teardown_pending (p : Port) (st : SessionState) (s : State) : (teardown p st s).pending = s.pending := by
  simp only [teardown, updDelivery_pending, removePort_pending, setInbox_pending, setSession_pending]

theorem teardown_groups (p : Port) (st : SessionState) (s : State) (g : Group) :
    (teardown p st s).groups[g] = { s.groups[g] with members := s.groups[g].members.set p none } := by
  simp only [teardown, updDelivery_groups]
  rw [removePort_groups]
  rfl

theorem teardown_delivery_same (p : Port) (st : SessionState) (s : State) : (teardown p st s).delivery.get p = Delivery.empty := by
  simp only [teardown, updDelivery_get_same]

theorem teardown_delivery_ne {p q : Port} (h : q ≠ p) (st : SessionState) (s : State) :
    (teardown p st s).delivery.get q = s.delivery.get q := by
  simp only [teardown, updDelivery_get_ne h, removePort_delivery]
  rfl

theorem teardown_session_same (p : Port) (st : SessionState) (s : State) :
    sessionOf (teardown p st s) p = { sessionOf s p with state := st, role := none, tag := none } := by
  simp only [sessionOf, teardown, updDelivery_mgr, removePort_mgr, setInbox, setSession, PerPort.get_set_same]

theorem teardown_session_ne {p q : Port} (h : q ≠ p) (st : SessionState) (s : State) : sessionOf (teardown p st s) q = sessionOf s q := by
  simp only [sessionOf, teardown, updDelivery_mgr, removePort_mgr, setInbox, setSession, PerPort.get_set_ne _ h]

theorem teardown_adminClaim (p : Port) (st : SessionState) (s : State) :
    (teardown p st s).mgr.adminClaim = if s.mgr.adminClaim = some p then none else s.mgr.adminClaim := by
  simp only [teardown, updDelivery_mgr, removePort_mgr, setInbox, setSession]
  rfl

theorem teardown_resetInFlight (p : Port) (st : SessionState) (s : State) : (teardown p st s).mgr.resetInFlight = s.mgr.resetInFlight := by
  simp only [teardown, updDelivery_mgr, removePort_mgr, setInbox, setSession]

theorem teardown_handed (p : Port) (st : SessionState) (s : State) : (teardown p st s).mgr.handed = s.mgr.handed := by
  simp only [teardown, updDelivery_mgr, removePort_mgr, setInbox, setSession]

theorem teardown_inbox (p : Port) (st : SessionState) (s : State) : (teardown p st s).mgr.inbox = s.mgr.inbox.set p [] := by
  simp only [teardown, updDelivery_mgr, removePort_mgr, setInbox, setSession]

/-! ## Full reset (R155) -/

@[simp] theorem fullReset_scan (s : State) : (fullReset s).scan = Scanner.atReset := rfl
@[simp] theorem fullReset_keys (s : State) : (fullReset s).keys = KeyTable.atReset := rfl
@[simp] theorem fullReset_groups (s : State) : (fullReset s).groups = Vector.replicate 32 GroupRec.atReset := rfl
@[simp] theorem fullReset_disp (s : State) : (fullReset s).disp = Dispatcher.atReset := rfl
@[simp] theorem fullReset_delivery (s : State) : (fullReset s).delivery = PerPort.all Delivery.empty := rfl
@[simp] theorem fullReset_lamps (s : State) : (fullReset s).lamps = Vector.replicate 128 LampRec.atReset := rfl
@[simp] theorem fullReset_link (s : State) : (fullReset s).link = PerPort.all Link.atReset := rfl
@[simp] theorem fullReset_mgr (s : State) : (fullReset s).mgr = Manager.atReset := rfl
@[simp] theorem fullReset_pins (s : State) : (fullReset s).pins = { straps := s.pins.straps, bitRate := s.pins.straps } := rfl
@[simp] theorem fullReset_races (s : State) : (fullReset s).races = s.races := rfl
@[simp] theorem fullReset_pending (s : State) : (fullReset s).pending = s.pending := rfl

end Sys2Proof.Machine
end

