-- ==== Sys2Proof/Laws/PerInstr.lean ====
section
/-! SUPPORT. Laws made for every command by its syntax: the family FrameFits. -/

namespace Sys2Proof.Laws.FrameFits

/-- A frame whose payload fits has a LEN byte in range, and the byte gives back the payload's length (R110). -/
theorem lenByte_of_fits {f : RxFrame} (h : f.fits = true) :
    (Machine.byteOf (f.payload.length + 3)).toNat = f.payload.length + 3 ∧ f.payload.length + 3 ≤ Config.lenMax := by
  have hl : f.payload.length ≤ 64 := of_decide_eq_true h
  simp only [Machine.byteOf, BitVec.toNat_ofNat, Config.lenMax]
  omega

/-- The frame that a well-formed command stands for has a LEN in range, and its LEN byte gives back the payload's length (R110). -/
def Statement (i : Instr) : Prop :=
  i.wellFormed = true → ∀ (p : Port) (f : RxFrame), i.frame? = some (p, f) →
    (Machine.byteOf (f.payload.length + 3)).toNat = f.payload.length + 3 ∧ f.payload.length + 3 ≤ Config.lenMax

/-- What holds of a command because its frame was checked. -/
theorem of_wellFormed (i : Instr) : Statement i := by
  intro hw p f hf
  apply lenByte_of_fits
  unfold Instr.wellFormed at hw
  rw [hf, Bool.and_eq_true] at hw
  exact hw.1

theorem nrst (straps : BitVec 2) : Statement (.nrst straps) := of_wellFormed _
theorem powerUp (straps : BitVec 2) : Statement (.powerUp straps) := of_wellFormed _
theorem openSession (p : Port) (seq ack : Byte) (payload : List Byte) : Statement (.openSession p seq ack payload) := of_wellFormed _
theorem close (p : Port) (seq ack : Byte) (payload : List Byte) : Statement (.close p seq ack payload) := of_wellFormed _
theorem grant (p : Port) (seq ack : Byte) (payload : List Byte) : Statement (.grant p seq ack payload) := of_wellFormed _
theorem join (p : Port) (seq ack : Byte) (payload : List Byte) : Statement (.join p seq ack payload) := of_wellFormed _
theorem leave (p : Port) (seq ack : Byte) (payload : List Byte) : Statement (.leave p seq ack payload) := of_wellFormed _
theorem snapshot (p : Port) (seq ack : Byte) (payload : List Byte) : Statement (.snapshot p seq ack payload) := of_wellFormed _
theorem snapshotRead (p : Port) : Statement (.snapshotRead p) := of_wellFormed _
theorem lamps (p : Port) (seq ack : Byte) (payload : List Byte) : Statement (.lamps p seq ack payload) := of_wellFormed _
theorem status (p : Port) (seq ack : Byte) (payload : List Byte) : Statement (.status p seq ack payload) := of_wellFormed _
theorem mapKeys (p : Port) (seq ack : Byte) (payload : List Byte) : Statement (.mapKeys p seq ack payload) := of_wellFormed _
theorem mapLamps (p : Port) (seq ack : Byte) (payload : List Byte) : Statement (.mapLamps p seq ack payload) := of_wellFormed _
theorem groupSetup (p : Port) (seq ack : Byte) (payload : List Byte) : Statement (.groupSetup p seq ack payload) := of_wellFormed _
theorem dissolve (p : Port) (seq ack : Byte) (payload : List Byte) : Statement (.dissolve p seq ack payload) := of_wellFormed _
theorem scanSetup (p : Port) (seq ack : Byte) (payload : List Byte) : Statement (.scanSetup p seq ack payload) := of_wellFormed _
theorem scanControlStart (p : Port) (seq ack : Byte) (extra : List Byte) : Statement (.scanControlStart p seq ack extra) := of_wellFormed _
theorem scanControlHalt (p : Port) (seq ack : Byte) (extra : List Byte) : Statement (.scanControlHalt p seq ack extra) := of_wellFormed _
theorem scanControlWatch (p : Port) (seq ack : Byte) (extra : List Byte) : Statement (.scanControlWatch p seq ack extra) := of_wellFormed _
theorem reset (p : Port) (seq ack : Byte) (payload : List Byte) : Statement (.reset p seq ack payload) := of_wellFormed _
theorem unknownTypeRequest (p : Port) (typ seq ack : Byte) (payload : List Byte) : Statement (.unknownTypeRequest p typ seq ack payload) := of_wellFormed _
theorem ack (p : Port) (seq ack : Byte) (payload : List Byte) : Statement (.ack p seq ack payload) := of_wellFormed _
theorem badCrcFrame (p : Port) : Statement (.badCrcFrame p) := of_wellFormed _
theorem gapTimerExpiry (p : Port) : Statement (.gapTimerExpiry p) := of_wellFormed _
theorem scanFrameCompletion : Statement .scanFrameCompletion := of_wellFormed _
theorem watchSample (sense : BitVec 8) : Statement (.watchSample sense) := of_wellFormed _
theorem litDemand : Statement .litDemand := of_wellFormed _
theorem routeTransition : Statement .routeTransition := of_wellFormed _
theorem retransmitTimerExpiry (p : Port) : Statement (.retransmitTimerExpiry p) := of_wellFormed _
theorem ackHoldoffExpiry (p : Port) : Statement (.ackHoldoffExpiry p) := of_wellFormed _
theorem frameTransmitEnd (p : Port) : Statement (.frameTransmitEnd p) := of_wellFormed _
theorem arrivingByte (p : Port) (b : Byte) (framingFault : Bool) : Statement (.arrivingByte p b framingFault) := of_wellFormed _
theorem columnSlotEnd (sense : BitVec 8) : Statement (.columnSlotEnd sense) := of_wellFormed _

end Sys2Proof.Laws.FrameFits
end

