-- ==== Sys2Proof/Laws/Requests.lean ====
section
/-! SUPPORT. How an accepted request runs through a part that is between two commands: it is taken by the Session Manager and its owner, and nothing else
follows; and the words of the statements beside the functions they speak of. Cited by the proofs of the statements. -/

namespace Sys2Proof.Machine

/-! ## What follows without a command -/

theorem requestEvent_eq_none {s : State} : requestEvent s = none ↔ ownerEvent s = none ∧ managerEvent s = none := Option.or_eq_none_iff

theorem internal_eq_none {s : State} : internal s = none ↔ scannerEvent s = none ∧ ownerEvent s = none ∧ managerEvent s = none := by
  rw [← requestEvent_eq_none]
  unfold internal
  cases scannerEvent s <;> cases requestEvent s <;> simp

/-- While no stage of the scanner is due, what follows is a request's. -/
theorem internal_request {s : State} (h : scannerEvent s = none) : internal s = requestEvent s := by
  simp only [internal, h]
  cases requestEvent s <;> rfl

/-- While no request can be taken, what follows is the scanner's. -/
theorem internal_scanner {s : State} (h : requestEvent s = none) : internal s = scannerEvent s := by
  simp only [internal, h]
  cases scannerEvent s <;> rfl

theorem scannerEvent_eq_none {s : State} :
    scannerEvent s = none ↔
      s.disp.waiting ≠ [] ∨ (s.scan.phase ≠ .imageWaiting ∧ s.scan.phase ≠ .haltWaiting ∧ s.scan.phase ≠ .haltRouting) := by
  unfold scannerEvent
  cases hw : s.disp.waiting with
  | nil => cases hp : s.scan.phase <;> simp
  | cons _ _ => simp

theorem ownerEvent_eq_none {s : State} : ownerEvent s = none ↔ ∀ p, readyRequest s p = none := by
  unfold ownerEvent
  rw [List.findSome?_eq_none_iff]
  simp only [Option.map_eq_none_iff, List.mem_cons, List.not_mem_nil, or_false]
  constructor
  · intro h p
    cases p <;> exact h _ (by simp)
  · intro h p _
    exact h p

theorem managerEvent_eq_none {s : State} : managerEvent s = none ↔ ∀ p, nextRequest s p = none := by
  unfold managerEvent
  rw [List.findSome?_eq_none_iff]
  simp only [Option.map_eq_none_iff, List.mem_cons, List.not_mem_nil, or_false]
  constructor
  · intro h p
    cases p <;> exact h _ (by simp)
  · intro h p _
    exact h p

/-- No completion holds the scanner's requests back while no image waits, or a HALT is in flight. -/
theorem completing_eq_false {sc : Scanner} : sc.completing = false ↔ sc.phase ≠ .imageWaiting ∨ sc.halt.isSome = true := by
  cases hp : sc.phase <;> cases hh : sc.halt <;> simp [Scanner.completing, hp, hh]

/-- Whether an owner is ready depends on the Dispatcher and on whether a completion holds the scanner's requests back. -/
theorem ownerReady_congr {s t : State} (hd : t.disp = s.disp) (hc : t.scan.completing = s.scan.completing) (p : Port) (a : Ask) :
    ownerReady t p a = ownerReady s p a := by
  cases a <;> simp only [ownerReady, hd, hc]

theorem readyRequest_congr {s t : State} (hd : t.disp = s.disp) (hc : t.scan.completing = s.scan.completing)
    (hh : t.mgr.handed = s.mgr.handed) (p : Port) : readyRequest t p = readyRequest s p := by
  simp only [readyRequest, hh, ownerReady_congr hd hc]

/-- Nothing follows in a state that agrees in what the internal events read with one where nothing follows. -/
theorem internal_none_congr {s t : State} (hd : t.disp = s.disp) (hp : t.scan.phase = s.scan.phase)
    (hc : t.scan.completing = s.scan.completing) (hh : t.mgr.handed = s.mgr.handed) (hi : t.mgr.inbox = s.mgr.inbox)
    (h : internal s = none) : internal t = none := by
  rw [internal_eq_none, scannerEvent_eq_none, ownerEvent_eq_none, managerEvent_eq_none] at h ⊢
  obtain ⟨h1, h2, h3⟩ := h
  refine ⟨by rw [hd, hp]; exact h1, fun p => by rw [readyRequest_congr hd hc hh]; exact h2 p, fun p => ?_⟩
  have := h3 p
  simp only [nextRequest, hh, hi] at this ⊢
  exact this

theorem settle_none {s : State} (h : internal s = none) (n : Nat) : settle n s = s := by
  cases n with
  | zero => rfl
  | succ n => simp only [settle, h]

theorem settle_once {s s' : State} (h : internal s = some s') (h' : internal (serveAll s') = none) {n : Nat} (hn : 0 < n) :
    settle n s = serveAll s' := by
  cases n with
  | zero => exact absurd hn (by decide)
  | succ n =>
    simp only [settle, h]
    exact settle_none h' n

theorem internal_serveAll_none {s : State} (h : internal s = none) : internal (serveAll s) = none :=
  internal_none_congr (by simp only [serveAll_disp]) (by simp only [serveAll_scan]) (by simp only [serveAll_scan])
    (by simp only [serveAll_mgr]) (by simp only [serveAll_mgr]) h

@[simp] theorem serveAll_serveAll (s : State) : serveAll (serveAll s) = serveAll s := serveAll_nothing (fun p => serveAll_settles s p)

theorem finish_quiet {s : State} (h : internal s = none) : finish s = serveAll s := by
  simp only [finish]
  exact settle_none (internal_serveAll_none h) _

/-- Between two commands a port with no request handed to an owner has none waiting for the Session Manager. -/
theorem inbox_nil {s : State} (h : internal s = none) {p : Port} (hh : s.mgr.handed.get p = none) : s.mgr.inbox.get p = [] := by
  rw [internal_eq_none, managerEvent_eq_none] at h
  have := h.2.2 p
  unfold nextRequest at this
  rw [hh] at this
  cases hi : s.mgr.inbox.get p with
  | nil => rfl
  | cons r rest =>
    rw [hi] at this
    exact absurd this (by simp)

/-! ## The acceptance of a request -/

theorem Link.oweAck_keeps (l : Link) :
    l.oweAck.lastAccepted = l.lastAccepted ∧ l.oweAck.openMark = l.openMark ∧ l.oweAck.framer = l.framer ∧ l.oweAck.rto = l.rto ∧
      l.oweAck.held = l.held ∧ l.oweAck.replies = l.replies ∧ l.oweAck.resend = l.resend ∧ l.oweAck.line = l.line ∧
      l.oweAck.burst = l.burst ∧ l.oweAck.ackOwed = true := by
  unfold Link.oweAck
  split
  · rename_i h
    exact ⟨rfl, rfl, rfl, rfl, rfl, rfl, rfl, rfl, rfl, h⟩
  · exact ⟨rfl, rfl, rfl, rfl, rfl, rfl, rfl, rfl, rfl, rfl⟩

theorem Link.accept_keeps (seq : Byte) (l : Link) :
    (l.accept seq).lastAccepted = seq ∧ (l.accept seq).openMark = false ∧ (l.accept seq).framer = l.framer ∧ (l.accept seq).rto = l.rto ∧
      (l.accept seq).held = l.held + 1 ∧ (l.accept seq).replies = l.replies ∧ (l.accept seq).resend = l.resend ∧
      (l.accept seq).line = l.line ∧ (l.accept seq).burst = l.burst ∧ (l.accept seq).ackOwed = true :=
  Link.oweAck_keeps _

theorem Link.readAck_keeps (a : Byte) (l : Link) :
    (l.readAck a).lastAccepted = l.lastAccepted ∧ (l.readAck a).openMark = l.openMark ∧ (l.readAck a).framer = l.framer ∧
      (l.readAck a).rto = l.rto ∧ (l.readAck a).held = l.held ∧ (l.readAck a).replies = l.replies ∧ (l.readAck a).line = l.line ∧
      (l.readAck a).replyRun = l.replyRun ∧ (l.readAck a).nextSeq = l.nextSeq ∧ (l.readAck a).ackOwed = l.ackOwed ∧
      (l.readAck a).noSession = l.noSession ∧ (l.readAck a).openRefused = l.openRefused := by
  unfold Link.readAck
  simp only
  split <;> exact ⟨rfl, rfl, rfl, rfl, rfl, rfl, rfl, rfl, rfl, rfl, rfl, rfl⟩

theorem resetOn_false {s : State} (h : s.mgr.resetInFlight = none) (p : Port) : resetOn s p = false := by
  simp only [resetOn, h, Option.any_none]

theorem ackEndsReset_false {s : State} (h : s.mgr.resetInFlight = none) (p : Port) (a : Byte) : ackEndsReset p a s = false := by
  simp only [ackEndsReset, resetOn_false h, Bool.false_and]

theorem open_state {s : State} {p : Port} (h : isOpen s p = true) : (sessionOf s p).state = .open := by
  simpa only [isOpen, beq_iff_eq] using h

/-- In an OPEN session the ACK byte ends no CLOSING. -/
theorem takeAckByte_open {s : State} {p : Port} (h : isOpen s p = true) (a : Byte) : takeAckByte p a s = updLink p (Link.readAck a) s := by
  have hc : ackEndsClosing p a s = false := by
    simp only [ackEndsClosing, open_state h]
    rfl
  simp only [takeAckByte, hc]
  rfl

/-- How a request just accepted stands at the Session Manager (R118, R151). -/
def arrived (s : State) (p : Port) (f : RxFrame) : Queued := { req := requestOf s p f, passed := false }

/-- The state in which the owner of an accepted request finds the part: the ACK byte read, the request accepted, a meeting passed. -/
def beforeOwner (p : Port) (seq a : Byte) (s : State) : State :=
  raceChoice p (updLink p (fun l => (l.readAck a).accept seq) s)

theorem updLink_updLink (p : Port) (f g : Link → Link) (s : State) : updLink p f (updLink p g s) = updLink p (fun l => f (g l)) s := by
  simp only [updLink, PerPort.get_set_same, PerPort.set_set]

theorem chooseFrame_setInbox (p q : Port) (rs : List Queued) (s : State) :
    chooseFrame p (setInbox q rs s) = (chooseFrame p s).map (setInbox q rs) := by
  unfold chooseFrame
  simp only [Option.map_map]
  rfl

/-- A meeting does not read the Session Manager. -/
theorem raceChoice_setInbox (p q : Port) (rs : List Queued) (s : State) :
    raceChoice p (setInbox q rs s) = setInbox q rs (raceChoice p s) := by
  have hl : lineIdle p (setInbox q rs s) = lineIdle p s := rfl
  unfold raceChoice
  rw [chooseFrame_setInbox, hl]
  cases lineIdle p s with
  | false => rfl
  | true =>
    cases chooseFrame p s with
    | none => rfl
    | some x =>
      simp only [if_true, Option.map_some]
      by_cases hr : Config.race s.races = true
      · have hr' : Config.race (setInbox q rs s).races = true := hr
        rw [if_pos hr', if_pos hr]
        rfl
      · have hr' : ¬Config.race (setInbox q rs s).races = true := hr
        rw [if_neg hr', if_neg hr]
        rfl

/-- The whole course of an accepted request: the Session Manager takes it in the state `beforeOwner`, every IDLE transmitter makes its choice, and nothing
more follows. -/
theorem accepted_request {s : State} {p : Port} {f : RxFrame} (hr : Accepting s p f.seq)
    (hack : ackEndsReset p f.ack s = false) (hta : f.typ ≠ typeAck) (hto : f.typ ≠ typeOpen)
    (hq : internal (takeRequest (arrived s p f) (beforeOwner p f.seq f.ack s)) = none) :
    takeGoodFrame p f s = serveAll (takeRequest (arrived s p f) (beforeOwner p f.seq f.ack s)) := by
  obtain ⟨⟨hint, hidle⟩, hopen, hid, hseq, hpl, hhand⟩ := hr
  have hin := inbox_nil hint hhand
  have hak := takeAckByte_open hopen f.ack
  unfold takeGoodFrame
  rw [if_neg (by rw [hack]; decide)]
  simp only [hak]
  rw [if_neg hta, if_neg hto]
  unfold takeRequestFrame
  have hst : (sessionOf (updLink p (Link.readAck f.ack) s) p).state = .open := open_state hopen
  simp only [hst]
  have hv : verdict (updLink p (Link.readAck f.ack) s) p f.seq = .accepted := by
    have hk := Link.readAck_keeps f.ack (s.link.get p)
    simp only [verdict, updLink_get_same, hk.1, Link.places, hk.2.2.2.2.2.1, hk.2.2.2.2.1]
    unfold judge
    rw [if_pos hseq]
    exact if_pos hpl
  simp only [hv]
  have hacc : acceptRequest p f (updLink p (Link.readAck f.ack) s) =
      setInbox p [arrived s p f] (updLink p (fun l => (l.readAck f.ack).accept f.seq) s) := by
    simp only [acceptRequest, updLink_mgr, hin, List.nil_append, updLink_updLink]
    rfl
  rw [hacc]
  simp only [finishRequest, raceChoice_setInbox]
  have hb : raceChoice p (updLink p (fun l => (l.readAck f.ack).accept f.seq) s) = beforeOwner p f.seq f.ack s := rfl
  rw [hb]
  have hback : setInbox p [] (setInbox p [arrived s p f] (beforeOwner p f.seq f.ack s)) = beforeOwner p f.seq f.ack s := by
    have hm : (beforeOwner p f.seq f.ack s).mgr.inbox.get p = [] := by
      simp only [beforeOwner, raceChoice_mgr, updLink_mgr, hin]
    simp only [setInbox, PerPort.set_set]
    rw [← hm]
    simp only [PerPort.set_get]
  have hev : internal (setInbox p [arrived s p f] (beforeOwner p f.seq f.ack s)) =
      some (takeRequest (arrived s p f) (beforeOwner p f.seq f.ack s)) := by
    rw [internal_eq_none] at hint
    obtain ⟨h1, h2, h3⟩ := hint
    rw [scannerEvent_eq_none] at h1
    rw [ownerEvent_eq_none] at h2
    rw [managerEvent_eq_none] at h3
    have e1 : scannerEvent (setInbox p [arrived s p f] (beforeOwner p f.seq f.ack s)) = none := by
      rw [scannerEvent_eq_none]
      simp only [setInbox_disp, setInbox_scan, beforeOwner, raceChoice_disp, raceChoice_scan, updLink_disp, updLink_scan]
      exact h1
    have e2 : ownerEvent (setInbox p [arrived s p f] (beforeOwner p f.seq f.ack s)) = none := by
      rw [ownerEvent_eq_none]
      intro q
      have hc := readyRequest_congr (s := s) (t := setInbox p [arrived s p f] (beforeOwner p f.seq f.ack s))
        (by simp only [setInbox_disp, beforeOwner, raceChoice_disp, updLink_disp])
        (by simp only [setInbox_scan, beforeOwner, raceChoice_scan, updLink_scan])
        (by simp only [setInbox_handed, beforeOwner, raceChoice_mgr, updLink_mgr]) q
      rw [hc]
      exact h2 q
    rw [internal_request e1, requestEvent, e2, Option.none_or]
    have hne : ∀ q, q ≠ p → nextRequest (setInbox p [arrived s p f] (beforeOwner p f.seq f.ack s)) q = none := by
      intro q hqp
      have := h3 q
      unfold nextRequest at this ⊢
      simp only [setInbox_handed, setInbox_inbox_ne hqp, beforeOwner, raceChoice_mgr, updLink_mgr]
      exact this
    have hpp : nextRequest (setInbox p [arrived s p f] (beforeOwner p f.seq f.ack s)) p = some (arrived s p f, []) := by
      unfold nextRequest
      simp only [setInbox_handed, setInbox_inbox_same, beforeOwner, raceChoice_mgr, updLink_mgr, hhand]
    unfold managerEvent
    cases p
    · simp only [List.findSome?_cons, hpp, Option.map_some, hback]
    · simp only [List.findSome?_cons, hne .p0 (by decide), hpp, Option.map_some, Option.map_none, hback]
    · simp only [List.findSome?_cons, hne .p0 (by decide), hne .p1 (by decide), hpp, Option.map_some, Option.map_none, hback]
  have hpos : 0 < internalMeasure (setInbox p [arrived s p f] (beforeOwner p f.seq f.ack s)) := by
    unfold internalMeasure portMeasure
    cases p <;> simp only [setInbox_inbox_same, List.length_singleton] <;> omega
  rw [settle_once hev (internal_serveAll_none hq) hpos, serveAll_serveAll]

/-! ## What the owner finds -/

@[simp] theorem beforeOwner_scan (p : Port) (seq a : Byte) (s : State) : (beforeOwner p seq a s).scan = s.scan := by
  simp only [beforeOwner, raceChoice_scan, updLink_scan]
@[simp] theorem beforeOwner_keys (p : Port) (seq a : Byte) (s : State) : (beforeOwner p seq a s).keys = s.keys := by
  simp only [beforeOwner, raceChoice_keys, updLink_keys]
@[simp] theorem beforeOwner_groups (p : Port) (seq a : Byte) (s : State) : (beforeOwner p seq a s).groups = s.groups := by
  simp only [beforeOwner, raceChoice_groups, updLink_groups]
@[simp] theorem beforeOwner_disp (p : Port) (seq a : Byte) (s : State) : (beforeOwner p seq a s).disp = s.disp := by
  simp only [beforeOwner, raceChoice_disp, updLink_disp]
@[simp] theorem beforeOwner_lamps (p : Port) (seq a : Byte) (s : State) : (beforeOwner p seq a s).lamps = s.lamps := by
  simp only [beforeOwner, raceChoice_lamps, updLink_lamps]
@[simp] theorem beforeOwner_mgr (p : Port) (seq a : Byte) (s : State) : (beforeOwner p seq a s).mgr = s.mgr := by
  simp only [beforeOwner, raceChoice_mgr, updLink_mgr]
@[simp] theorem beforeOwner_pins (p : Port) (seq a : Byte) (s : State) : (beforeOwner p seq a s).pins = s.pins := by
  simp only [beforeOwner, raceChoice_pins, updLink_pins]
@[simp] theorem beforeOwner_pending (p : Port) (seq a : Byte) (s : State) : (beforeOwner p seq a s).pending = s.pending := by
  simp only [beforeOwner, raceChoice_pending, updLink_pending]
@[simp] theorem beforeOwner_link_ne {p q : Port} (h : q ≠ p) (seq a : Byte) (s : State) :
    (beforeOwner p seq a s).link.get q = s.link.get q := by
  simp only [beforeOwner, raceChoice_link_ne h, updLink_get_ne h]
@[simp] theorem beforeOwner_delivery_ne {p q : Port} (h : q ≠ p) (seq a : Byte) (s : State) :
    (beforeOwner p seq a s).delivery.get q = s.delivery.get q := by
  simp only [beforeOwner, raceChoice_delivery_ne h, updLink_delivery]

/-- On a line that was SENDING there is no meeting. -/
theorem beforeOwner_busy {p : Port} {s : State} (h : lineIdle p s = false) (seq a : Byte) :
    beforeOwner p seq a s = updLink p (fun l => (l.readAck a).accept seq) s := by
  apply raceChoice_busy
  simp only [lineIdle, updLink_get_same, (Link.accept_keeps seq _).2.2.2.2.2.2.2.1, (Link.readAck_keeps a _).2.2.2.2.2.2.1]
  exact h

/-- What the owner finds of the port's own units: the SEQ accepted, a place held, no reply lost; a composition at most. -/
theorem beforeOwner_own (p : Port) (seq a : Byte) (s : State) :
    ((beforeOwner p seq a s).link.get p).lastAccepted = seq ∧ ((beforeOwner p seq a s).link.get p).openMark = false ∧
      ((beforeOwner p seq a s).link.get p).framer = (s.link.get p).framer ∧ ((beforeOwner p seq a s).link.get p).rto = (s.link.get p).rto ∧
      ((beforeOwner p seq a s).link.get p).held = (s.link.get p).held + 1 ∧
      ComposedFrom s (s.delivery.get p) ((beforeOwner p seq a s).delivery.get p) := by
  have ha := Link.accept_keeps seq ((s.link.get p).readAck a)
  have hk := Link.readAck_keeps a (s.link.get p)
  rcases raceChoice_spec p (updLink p (fun l => (l.readAck a).accept seq) s) with h | h | ⟨l, d, h, _, hl, hd⟩
  · simp only [beforeOwner, h, updLink_get_same, ha, hk, updLink_delivery, true_and]
    exact Or.inl rfl
  · simp only [beforeOwner, h, updLink_get_same, ha, hk, updLink_delivery, true_and]
    exact Or.inl rfl
  · simp only [updLink_get_same] at hl
    simp only [beforeOwner, h, setPort, PerPort.get_set_same, hl.lastAccepted, hl.openMark, hl.framer, hl.rto, hl.held, ha, hk, true_and]
    exact hd

/-! ## The reset in flight and the requests that came before it -/

/-- A RESET leaves its own port's waiting requests as they stand. -/
theorem passOthers_get_same (p : Port) (x : PerPort (List Queued)) : (passOthers p x).get p = x.get p := by
  cases p <;> rfl

/-- A RESET lets the waiting requests of every other port pass. -/
theorem passOthers_get_ne {p q : Port} (h : q ≠ p) (x : PerPort (List Queued)) :
    (passOthers p x).get q = (x.get q).map fun w => { w with passed := true } := by
  cases p <;> cases q <;> first | rfl | exact absurd rfl h

/-- With no reset in flight check 1 refuses nothing. -/
theorem resetRefused_of_none {s : State} (h : s.mgr.resetInFlight = none) (w : Queued) : resetRefused w s = false := by
  simp only [resetRefused, h, Option.isSome_none, Bool.false_and]

/-- A request accepted before the RESET passes check 1. -/
theorem resetRefused_of_passed {w : Queued} (h : w.passed = true) (s : State) : resetRefused w s = false := by
  simp only [resetRefused, h, Bool.not_true, Bool.and_false]

/-! ## What the statements' words say of the model's functions -/

theorem memberless_iff {s : State} {g : Group} : memberless s.groups[g] = true ↔ NoMembers s g := by
  unfold memberless
  have h : s.groups[g].members = ⟨memberMode s g .p0, memberMode s g .p1, memberMode s g .p2⟩ := rfl
  rw [h, beq_iff_eq]
  simp only [PerPort.all, PerPort.mk.injEq]

theorem LampRec.blank_eq_darkened (l : LampRec) : l.blank = l.darkened := by
  obtain ⟨g, m⟩ := l
  cases m with
  | switched m => cases m <;> rfl
  | follow k => rfl

/-- All that a transmitter's service does to its port's units. -/
theorem serve_servedIn (p : Port) (s : State) :
    ServedIn (serve p s) (s.link.get p) ((serve p s).link.get p) (s.delivery.get p) ((serve p s).delivery.get p) := by
  unfold ServedIn
  simp only [serve_keys, serve_scan]
  unfold serve lineIdle chooseFrame
  cases hl : (s.link.get p).line.isIdle with
  | false => rfl
  | true =>
    cases hc : choice s.keys.transition s.scan.frameNumber (s.link.get p) (s.delivery.get p) with
    | none => rfl
    | some x => simp only [if_true, Option.map_some, Option.getD_some, setPort, PerPort.get_set_same]

/-- Units that a settled state's transmitter has nothing to choose from stay as they are. -/
theorem servedIn_refl {s : State} (h : Settled s) (p : Port) :
    ServedIn s (s.link.get p) (s.link.get p) (s.delivery.get p) (s.delivery.get p) := by
  unfold ServedIn
  cases hl : (s.link.get p).line.isIdle with
  | false => rfl
  | true =>
    have hc := h.2 p hl
    simp only [chooseFrame, Option.map_eq_none_iff] at hc
    rw [hc]
    rfl

/-- Beside a waiting image a snapshot read carries the number before the scanner's. -/
theorem lastImageFrame_waiting {s : State} (h : s.scan.phase = .imageWaiting) : lastImageFrame s = s.scan.frameNumber - 1 := if_pos h

/-- In every other place a snapshot read carries the scanner's frame number. -/
theorem lastImageFrame_taken {s : State} (h : s.scan.phase ≠ .imageWaiting) : lastImageFrame s = s.scan.frameNumber := if_neg h

end Sys2Proof.Machine
end

