-- ==== Sys2Proof/Tests/Slice0.lean ====
section
/-! SUPPORT. The model's own tests: the checks on a command, single steps from the manual's own examples, and, for every statement with hypotheses,
states and operands that meet them. -/

namespace Sys2Proof.Tests

open Machine

set_option Elab.async false

/-! ## WellFormed -/

theorem test_payload_of_64_is_wellFormed : (Instr.lamps .p0 1 0 (List.replicate 64 0)).wellFormed = true := by decide +kernel
theorem test_payload_of_65_is_illFormed : (Instr.lamps .p0 1 0 (List.replicate 65 0)).wellFormed = false := by decide +kernel
theorem test_operation_byte_counts_in_the_payload : (Instr.scanControlStart .p0 1 0 (List.replicate 64 0)).wellFormed = false := by decide +kernel
theorem test_known_type_is_no_unknown_type : (Instr.unknownTypeRequest .p0 0x16 1 0 []).wellFormed = false := by decide +kernel
theorem test_ack_type_is_no_unknown_type : (Instr.unknownTypeRequest .p0 0x00 1 0 []).wellFormed = false := by decide +kernel
theorem test_unknown_type_is_wellFormed : (Instr.unknownTypeRequest .p0 0x17 1 0 []).wellFormed = true := by decide +kernel

/-! ## Frames as bytes -/

/-- The CRC register with one bit and one byte taken (R111). -/
theorem test_crc_first_bit : crcBit 0xFFFF true = 0xFFFE ∧ crcBit 0xFFFF false = 0x7FFB := by decide +kernel
theorem test_good_frame_is_read :
    goodFrame? ((frameBytes typeGrant 5 2 [9]).drop 1) = some ⟨typeGrant, 5, 2, [9]⟩ := by decide +kernel
theorem test_spoilt_frame_is_not_read :
    goodFrame? (((frameBytes typeGrant 5 2 [9]).drop 1).set 4 8) = none := by decide +kernel
theorem test_part_identity : ReplyData.identity.bytes = [0x16, 0x08, 0x01, 0x10, 0x08, 0x03, 0x40, 0x08] := by decide +kernel
theorem test_no_row_has_bits : decodeTableWord 8 0 = none := rfl

/-! ## States to test on -/

/-- A line with an ACK frame on it. -/
def busyLine : Line := .sending { seq := 0, ack := 0, body := .ack } 7

/-- P0 holds a session of this role, under identity 0 and tag 7; its line is in this state. -/
def opened (role : Role) (line : Line) : State :=
  { State.reset with
    mgr := { Manager.atReset with
      sessions := (PerPort.all Session.atReset).set .p0 { state := .open, role := some role, tag := some 7, identity := some 0 }
      adminClaim := if role = .admin then some .p0 else none }
    link := (PerPort.all Link.atReset).set .p0 { Link.atReset with line := line } }

/-- P0 holds the ADMIN session; its line is SENDING. -/
def admin : State := opened .admin busyLine

/-- P0 holds a USER session; its line is SENDING. -/
def user : State := opened .user busyLine

/-- The scanner in this state and place in the scan frame, with the watch timer as it should be. -/
def scanning (st : ScanState) (ph : Phase) (s : State) : State :=
  { s with
    scan := { s.scan with
      state := st, phase := ph
      watchTimer := if st = .watch then s.scan.watchTimer.start 64 else s.scan.watchTimer } }

/-- P0 is a member of group 4 in this mode; a LATCHED member's group is armed. -/
def joined (m : Mode) (s : State) : State :=
  updDelivery .p0 (Delivery.takeJoin 4 m) (setGroup 4 { GroupRec.atReset with members := (PerPort.all none).set .p0 (some m) } s)

/-- A transition of group 4 of this kind. -/
def ofGroup4 (kind : Kind) : Transition := { number := 1, frame := 0, key := 13, group := some 4, kind, flags := Flags.none }

/-- These transitions wait for the Dispatcher. -/
def queued (ts : List Transition) (s : State) : State := { s with disp := { s.disp with waiting := ts } }

/-- A key record and a raw image. -/
def withKey (k : Key) (r : KeyRec) (raw : BitVec 128) (s : State) : State :=
  { s with keys := { s.keys with recs := s.keys.recs.set k.val r }, scan := { s.scan with recorded := raw } }

/-- The press and release debounces and the stuck limit. -/
def withDebounce (np nr stuckLimit : Nat) (s : State) : State :=
  { s with scan := { s.scan with setup := { s.scan.setup with np, nr, stuckLimit } } }

/-! ## Single steps -/

/-- The next state of a command, for the tests. -/
def after (i : Instr) (s : State) : State :=
  match exec i s with
  | .next t => t
  | .fault _ => s
  | .refused _ => s

/-- OPEN ADMIN from reset, RTO 5, tag 0x2A01, SEQ 0 (section 11.1): OPEN with role ADMIN, the claim taken, the reply OK on the line in frame SEQ 0. -/
theorem test_open_admin :
    let t := after (.openSession .p0 0 0 [1, 5, 0x2A, 0x01]) State.reset
    sessionOf t .p0 = { state := .open, role := some .admin, tag := some 0x2A01, identity := some 0 } ∧ t.mgr.adminClaim = some .p0 ∧
      (t.link.get .p0).rto = 50 ∧
      (t.link.get .p0).line =
        .sending { seq := 0, ack := 0, body := .reply { session := 0, typ := typeOpen, seq := 0, status := .ok, data := .identity } } 18 := by
  decide +kernel

/-- A second OPEN ADMIN from another port: OPEN REFUSED with ADMIN_HELD. -/
theorem test_second_admin_is_refused :
    ((after (.openSession .p1 3 0 [1, 5, 0, 0]) admin).link.get .p1).line =
      .sending { seq := 0, ack := 3, body := .openRefused .adminHeld } 8 := by
  decide +kernel

/-- A request in CLOSED: NO SESSION (R128). -/
theorem test_no_session :
    ((after (.grant .p2 9 0 [1]) State.reset).link.get .p2).line = .sending { seq := 0, ack := 0, body := .noSession } 7 := by
  decide +kernel

/-- GRANT 32 (section 11.1): count 32. -/
theorem test_grant_32 :
    let t := after (.grant .p0 1 0 [32]) user
    (t.delivery.get .p0).credits = 32 ∧
      (t.link.get .p0).replies = [{ session := 0, typ := typeGrant, seq := 1, status := .ok, data := .credits 32 }] := by
  decide +kernel

/-- JOIN 4 STREAM (section 11.1). -/
theorem test_join_stream : memberMode (after (.join .p0 1 0 [4, 0]) user) 4 .p0 = some .stream := by decide +kernel

/-- SCAN CONTROL START from HALTED: ACTIVE with slot D0, and the notice posted to the ADMIN's own port (R13, R18). -/
theorem test_scan_start :
    let t := after (.scanControlStart .p0 1 0 []) admin
    t.scan.state = .active ∧ t.scan.phase = .slot 0 ∧ t.scan.driveLines = 1 ∧ (t.delivery.get .p0).scanEntry = some .active := by
  decide +kernel

/-- Column D0 sampled with S3 low: key 3 recorded; the next slot pulls D1 (R1, R3). -/
theorem test_slot_end :
    let t := after (.columnSlotEnd 0xF7) (scanning .active (.slot 0) admin)
    t.scan.recorded = 0x08 ∧ t.scan.phase = .slot 1 ∧ t.scan.driveLines = 2 := by
  decide +kernel

/-- The third consecutive closed image presses a key at Np 3, and the transition is number 1 of frame 1 (R29, R30, R21). -/
theorem test_third_image_presses :
    let s := withKey 13 { KeyRec.atReset with state := .pressing, count := 2, group := some 4 } (1 <<< 13) (scanning .active .frameEnd admin)
    (after .scanFrameCompletion s).disp.waiting =
      [{ number := 1, frame := 1, key := 13, group := some 4, kind := .press, flags := Flags.none }] := by
  decide +kernel

/-- Four corners closed at once: SUSPECT (R26). -/
theorem test_rectangle : suspectIn .plain 0x0303 0 = true ∧ suspectIn .plain 0x0301 0 = false ∧ suspectIn .isolated 0x0303 0 = false := by
  decide +kernel

/-- A LATCHED member's changed post turns armed into changed (R68), and the NOTICE waits while the line is SENDING. -/
theorem test_route_latched :
    let t := after .routeTransition (queued [ofGroup4 .press] (joined .latched user))
    t.disp.waiting = [] ∧ (t.delivery.get .p0).changed = 16 ∧ (t.delivery.get .p0).armed = 0 := by
  decide +kernel

/-- The end of a frame on the line lets the waiting NOTICE go (R131, R74). -/
theorem test_frame_end_sends_notice :
    let s := updDelivery .p0 (fun d => { d with changed := 16 }) user
    let t := after (.frameTransmitEnd .p0) s
    (t.link.get .p0).line = .sending { seq := 0, ack := 0, body := .notice 16 0 none } 16 ∧ (t.delivery.get .p0).changed = 0 := by
  decide +kernel

/-- A frame's bytes one after another do what the frame does; here a GRANT. -/
theorem test_bytes_of_grant :
    (match runAll ((frameBytes typeGrant 1 0 [32]).map fun b => .arrivingByte .p0 b false) user with
      | .next t => (t.delivery.get .p0).credits == 32 && (framerOf t .p0) == Framer.atReset
      | .fault _ => false
      | .refused _ => false) = true := by
  decide +kernel

/-- The command at the front of the queue is the one carried out; none is left. -/
theorem test_step_takes_front :
    (match step { user with pending := [.grant .p0 1 0 [32]] } with
      | .next t => (t.delivery.get .p0).credits == 32 && t.pending == []
      | .fault _ => false
      | .refused _ => false) = true := by
  decide +kernel

/-- LAMPS by a port that is no member of the lamp's group: LAMP_LOCKED, nothing changed (R104). -/
theorem test_lamp_locked :
    let s := setLamp 12 { group := some 4, mode := .switched .off } user
    let t := after (.lamps .p0 1 0 [12, 1]) s
    t.lamps[12].mode = .switched .off ∧
      (t.link.get .p0).replies = [{ session := 0, typ := typeLamps, seq := 1, status := .lampLocked, data := .none }] := by
  decide +kernel

/-- CLOSE, its reply sent and acknowledged: CLOSING, then CLOSED (R146). -/
theorem test_close_then_ack :
    let t := after (.close .p0 1 0 []) (opened .user .idle)
    (sessionOf t .p0).state = .closing ∧ (sessionOf (after (.ack .p0 0 0 []) t) .p0).state = .closed := by
  decide +kernel

/-- RESET, its reply sent and acknowledged: the full reset (R153, R154). -/
theorem test_reset_then_ack :
    let t := after (.reset .p0 1 0 []) (opened .admin .idle)
    t.mgr.resetInFlight = some (.p0, 0) ∧ (after (.ack .p0 0 0 []) t).mgr = Manager.atReset := by
  decide +kernel

/-! ## What the witnesses share -/

/-- Between two commands, said so that it can be computed. -/
abbrev quiet (s : State) : Prop :=
  internal s = none ∧ (lineIdle .p0 s = true → chooseFrame .p0 s = none) ∧ (lineIdle .p1 s = true → chooseFrame .p1 s = none) ∧
    (lineIdle .p2 s = true → chooseFrame .p2 s = none)

theorem settled_of {s : State} (h : quiet s) : Settled s := ⟨h.1, Port.forall_iff.mpr h.2⟩

/-- P0 can have a request with this SEQ accepted, said so that it can be computed. -/
abbrev accepts (s : State) (seq : Byte) : Prop :=
  quiet s ∧ isOpen s .p0 = true ∧ (sessionOf s .p0).identity.isSome = true ∧ seq = (s.link.get .p0).lastAccepted + 1 ∧
    (s.link.get .p0).places < Config.replyPlaces ∧ s.mgr.handed.get .p0 = none

theorem accepting_of {s : State} {seq : Byte} (h : accepts s seq) : Accepting s .p0 seq := ⟨settled_of h.1, h.2⟩

theorem ready_of {s : State} {seq : Byte} (h : accepts s seq ∧ s.mgr.resetInFlight = none) : Ready s .p0 seq := ⟨accepting_of h.1, h.2⟩

/-- What SessionsSound asks of one port with no request waiting. -/
abbrev portSessionSound (s : State) (p : Port) : Prop :=
  (sessionOf s p).role.isSome = isOpen s p ∧ (sessionOf s p).tag.isSome = isOpen s p ∧
    (isOpen s p = true → (sessionOf s p).identity.isSome = true) ∧
    (s.mgr.adminClaim = some p ↔ isOpen s p = true ∧ (sessionOf s p).role = some .admin) ∧
    s.mgr.handed.get p = none ∧ s.mgr.inbox.get p = []

theorem sessionsSound_of {s : State} (h : portSessionSound s .p0 ∧ portSessionSound s .p1 ∧ portSessionSound s .p2)
    (hr : s.mgr.resetInFlight = none ∨
      ∃ p n, s.mgr.resetInFlight = some (p, n) ∧ s.mgr.adminClaim = some p ∧ (sessionOf s p).identity = some n) :
    SessionsSound s := by
  refine ⟨fun p => ?_, fun p n hpn => ?_⟩
  · have hp : portSessionSound s p := Port.forall_iff.mpr h p
    obtain ⟨a, b, c, d, e, f⟩ := hp
    refine ⟨a, b, c, d, fun h hh => ?_, fun r hr => ?_⟩
    · rw [e] at hh
      cases hh
    · rw [f] at hr
      cases hr
  · rcases hr with hr | ⟨q, m, hr, h1, h2⟩
    · rw [hr] at hpn
      cases hpn
    · rw [hr] at hpn
      cases hpn
      exact ⟨h1, h2⟩

/-- What MembersSound asks of one port. -/
abbrev portMembersSound (s : State) (p : Port) : Prop :=
  (∀ g : Group, ((memberMode s g p).isSome = true → isOpen s p = true ∧ inSet (s.delivery.get p).dissolved g = false) ∧
    (inSet (s.delivery.get p).armed g = true ∨ inSet (s.delivery.get p).changed g = true → memberMode s g p = some .latched) ∧
    ¬(inSet (s.delivery.get p).armed g = true ∧ inSet (s.delivery.get p).changed g = true)) ∧
  (isOpen s p = false → s.delivery.get p = Delivery.empty) ∧
  ((s.delivery.get p).scanEntry.isSome = true → (sessionOf s p).role = some .admin)

theorem membersSound_of {s : State} (h : portMembersSound s .p0 ∧ portMembersSound s .p1 ∧ portMembersSound s .p2)
    (hl : ∀ l : Lamp, s.lamps[l].mode.lit = false) : MembersSound s := by
  have hp : ∀ p, portMembersSound s p := Port.forall_iff.mpr h
  exact ⟨fun p g => ((hp p).1 g).1, fun p g => ((hp p).1 g).2.1, fun p g => ((hp p).1 g).2.2, fun p => (hp p).2.1, fun p => (hp p).2.2,
    fun l g _ _ => hl l⟩

/-- What PanelSound asks, but for the lines. -/
abbrev panelHere (s : State) : Prop :=
  (s.scan.state = .active ↔ s.scan.phase ≠ .idle) ∧ (s.scan.state ≠ .active → allUp s = true) ∧
    (s.scan.phase = .haltRouting → allUp s = true) ∧
    ((s.scan.phase = .haltWaiting ∨ s.scan.phase = .haltRouting) → s.scan.halt.isSome = true) ∧
    (s.scan.halt.isSome = true → s.scan.state = .active) ∧ (s.scan.watchTimer.running = true ↔ s.scan.state = .watch) ∧
    (s.scan.state = .watch → anyLamp s = true → 0 < s.scan.litDemands)

theorem panelSound_of {s : State} (h : panelHere s) (hl : linesAllowed s.scan) : PanelSound s :=
  ⟨h.1, h.2.1, h.2.2.1, h.2.2.2.1, h.2.2.2.2.1, h.2.2.2.2.2.1, hl, h.2.2.2.2.2.2⟩

theorem sessionsSound_admin : SessionsSound admin := sessionsSound_of (by decide +kernel) (Or.inl rfl)
theorem membersSound_admin : MembersSound admin := membersSound_of (by decide +kernel) (by decide +kernel)
theorem ready_admin : Ready admin .p0 1 := ready_of (by decide +kernel)
theorem ready_user : Ready user .p0 1 := ready_of (by decide +kernel)

/-- P0's ADMIN session, with no line SENDING. -/
def adminIdle : State := opened .admin .idle

theorem ready_adminIdle : Ready adminIdle .p0 1 := ready_of (by decide +kernel)

/-- A HALT in flight for P0's session under this identity, its reply place held. -/
def halting (session : Nat) (s : State) : State :=
  updLink .p0 (fun l => { l with held := 1 }) { s with scan := { s.scan with halt := some { port := .p0, session, seq := 1 } } }

/-! ## Witnesses: the step, the panel -/

theorem witness_StepRunsFrontCommand : State.reset.pending = [] := rfl

theorem witness_SlotEnd :
    (scanning .active (.slot 15) admin).scan.phase = .slot 15 ∧ (scanning .active (.slot 14) admin).scan.phase = .slot 14 ∧
      ((15 : Column).val = (14 : Column).val + 1) ∧ ∀ c : Column, admin.scan.phase ≠ .slot c := by
  decide +kernel

/-- Every mode, with what the blinking ones answer at the ends of their lit halves. -/
theorem witness_LampLitByMode :
    let s := setLamp 0 { group := none, mode := .switched .on } (setLamp 1 { group := none, mode := .switched .blinkA }
      (setLamp 2 { group := none, mode := .switched .blinkB } (setLamp 3 { group := none, mode := .follow 127 } State.reset)))
    s.lamps[4].mode = .switched .off ∧ s.lamps[0].mode = .switched .on ∧ s.lamps[1].mode = .switched .blinkA ∧
      s.lamps[2].mode = .switched .blinkB ∧ s.lamps[3].mode = .follow 127 ∧
      lampLit s 31 1 = true ∧ lampLit s 32 1 = false ∧ lampLit s 63 1 = false ∧ lampLit s 64 1 = true ∧
      lampLit s 7 2 = true ∧ lampLit s 8 2 = false ∧ lampLit s 15 2 = false ∧ lampLit s 16 2 = true := by
  decide +kernel

/-- A key in this state, with these debounces, this stuck limit, these counts and this image. -/
def keyCase (st : KeyState) (np nr stuckLimit count countdown stuckCount : Nat) (raw : BitVec 128) : State :=
  withKey 0 { state := st, count, countdown, stuckCount, group := none } raw (withDebounce np nr stuckLimit State.reset)

/-- A slot of a column that the mask leaves out, the first and the last. -/
theorem witness_GhostRectangles :
    ∀ c ∈ ([0, 15] : List Column),
      let s := scanning .active (.slot c) admin
      let masked : State := { s with scan := { s.scan with setup := { s.scan.setup with columnMask := 0x7FFE } } }
      masked.scan.phase = .slot c ∧ masked.scan.setup.columnMask.getLsbD c.val = false := by
  decide +kernel

/-- Each state with the raw bit 0, with 1 in no rectangle and with 1 in one, at Np 1 and at Np 15. -/
theorem witness_KeyStepNotHeld :
    ∀ st ∈ [KeyState.up, .pressing, .suspect], ∀ np ∈ [1, 15],
      (keyCase st np 3 0 0 0 0 0).scan.setup.inRange = true ∧
      (keyCase st np 3 0 0 0 0 0).keys.recs[(0 : Key)].state = st ∧
      (keyCase st np 3 0 0 0 0 0).scan.recorded.getLsbD 0 = false ∧
      (keyCase st np 3 0 0 0 0 1).scan.recorded.getLsbD 0 = true ∧ suspectIn .plain (keyCase st np 3 0 0 0 0 1).scan.recorded 0 = false ∧
      (keyCase st np 3 0 0 0 0 0x303).scan.recorded.getLsbD 0 = true ∧
      suspectIn .plain (keyCase st np 3 0 0 0 0 0x303).scan.recorded 0 = true := by
  decide +kernel

/-- Each state with the raw bit 0 and 1, and, in DOWN, the stuck limit reached and one image before, and the countdown at 0, 1 and 2. -/
theorem witness_KeyStepHeld :
    (∀ st ∈ [KeyState.down, .releasing, .stuck], ∀ nr ∈ [1, 15],
      (keyCase st 3 nr 0 0 0 0 0).scan.setup.inRange = true ∧ (keyCase st 3 nr 0 0 0 0 0).keys.recs[(0 : Key)].state = st ∧
      (keyCase st 3 nr 0 0 0 0 0).scan.recorded.getLsbD 0 = false ∧ (keyCase st 3 nr 0 0 0 0 1).scan.recorded.getLsbD 0 = true) ∧
    (∀ countdown ∈ [0, 1, 2],
      stepOne (keyCase .down 3 3 1 0 countdown 255 1) 0 =
        ({ state := .stuck, count := 0, countdown, stuckCount := 256, group := none }, some (.stuck, Flags.none))) ∧
    stepOne (keyCase .down 3 3 1 0 0 254 1) 0 = ({ state := .down, count := 0, countdown := 0, stuckCount := 255, group := none }, none) ∧
    stepOne (keyCase .down 3 3 1 0 1 254 1) 0 =
      ({ state := .down, count := 0, countdown := 0, stuckCount := 255, group := none }, some (.repeated, Flags.none)) ∧
    stepOne (keyCase .down 3 3 0 0 2 65535 1) 0 = ({ state := .down, count := 0, countdown := 1, stuckCount := 65535, group := none }, none) := by
  decide +kernel

/-- A held key, one that is not, and an entry with the group the key has. -/
theorem witness_MapKeysEntry :
    ((keyCase .stuck 3 3 0 0 0 0 0).keys.recs[(0 : Key)].group ≠ some 31 ∧ (keyCase .stuck 3 3 0 0 0 0 0).keys.recs[(0 : Key)].state.held = true) ∧
    (State.reset.keys.recs[(127 : Key)].group ≠ some 0 ∧ State.reset.keys.recs[(127 : Key)].state.held = false) ∧
    State.reset.keys.recs[(0 : Key)].group = none := by
  decide +kernel

/-- The idle limit at 1 and this idle count. -/
def nearWatch (idleCount : Nat) (s : State) : State :=
  { s with scan := { s.scan with idleCount, setup := { s.scan.setup with idleLimit := 1 } } }

/-- A completion due with a transition waiting; with none, one image before WATCH and one at it; and none due. -/
theorem witness_FrameCompletion :
    (let s := queued [ofGroup4 .press] (scanning .active .frameEnd admin)
     s.scan.phase = .frameEnd ∧ Settled s ∧ s.disp.waiting ≠ []) ∧
    (let s := nearWatch 14 (scanning .active .frameEnd admin)
     s.scan.phase = .frameEnd ∧ Settled s ∧ s.disp.waiting = [] ∧ s.scan.halt = none ∧
       (after .scanFrameCompletion s).scan.phase = .slot 0) ∧
    (let s := nearWatch 15 (scanning .active .frameEnd admin)
     s.scan.phase = .frameEnd ∧ Settled s ∧ s.disp.waiting = [] ∧ s.scan.halt = none ∧ (after .scanFrameCompletion s).scan.state = .watch) ∧
    admin.scan.phase ≠ .frameEnd :=
  ⟨⟨rfl, settled_of (by decide +kernel), by decide +kernel⟩, ⟨rfl, settled_of (by decide +kernel), rfl, rfl, by decide +kernel⟩,
    ⟨rfl, settled_of (by decide +kernel), rfl, rfl, by decide +kernel⟩, by decide +kernel⟩

/-- A HALT in flight at a completion: an image that emits; one that does not, with a held key; and a quiet panel, for a session that is OPEN and for one that
has ended. -/
theorem witness_FrameCompletionWithHalt :
    (let s := withKey 0 { KeyRec.atReset with state := .pressing, count := 2 } 1 (halting 0 (scanning .active .frameEnd admin))
     Settled s ∧ s.scan.halt = some ⟨.p0, 0, 1⟩ ∧ (takeImage s).disp.waiting ≠ []) ∧
    (let s := withKey 0 { KeyRec.atReset with state := .down } 1 (halting 0 (scanning .active .frameEnd admin))
     Settled s ∧ (takeImage s).disp.waiting = [] ∧ (takeHalt (takeImage s)).disp.waiting ≠ []) ∧
    (let s := halting 0 (scanning .active .frameEnd admin)
     Settled s ∧ (takeImage s).disp.waiting = [] ∧ (takeHalt (takeImage s)).disp.waiting = [] ∧ isLive s .p0 0 = true ∧ 0 < (s.link.get .p0).held) ∧
    (let s := halting 9 (scanning .active .frameEnd admin)
     Settled s ∧ (takeHalt (takeImage s)).disp.waiting = [] ∧ isLive s .p0 9 = false) :=
  ⟨⟨settled_of (by decide +kernel), rfl, by decide +kernel⟩, ⟨settled_of (by decide +kernel), by decide +kernel, by decide +kernel⟩,
    ⟨settled_of (by decide +kernel), by decide +kernel, by decide +kernel, by decide +kernel, by decide +kernel⟩,
    ⟨settled_of (by decide +kernel), by decide +kernel, by decide +kernel⟩⟩

/-- What OnlySnapshotsWait asks of one port, said so that it can be computed. -/
def snapshotWaits (s : State) (q : Port) : Bool :=
  match s.mgr.handed.get q with
  | some ⟨_, .snapshot _⟩ => true
  | some _ => false
  | none => true

theorem snapshot_of_waits {s : State} {q : Port} {x : Handed} (h : snapshotWaits s q = true) (hx : s.mgr.handed.get q = some x) :
    ∃ g : Group, x.ask = .snapshot g := by
  obtain ⟨r, a⟩ := x
  unfold snapshotWaits at h
  rw [hx] at h
  cases a <;> first | exact ⟨_, rfl⟩ | exact Bool.noConfusion h

theorem onlySnapshotsWait_of {s : State} (h : snapshotWaits s .p0 = true ∧ snapshotWaits s .p1 = true ∧ snapshotWaits s .p2 = true) :
    OnlySnapshotsWait s (fun _ => True) :=
  fun q _ _ hx => snapshot_of_waits (q := q) (by cases q <;> simp only [h]) hx

theorem onlySnapshotsWait_beside_p0 {s : State} (h : snapshotWaits s .p1 = true ∧ snapshotWaits s .p2 = true) : OnlySnapshotsWait s (· ≠ .p0) :=
  fun q _ hq hx => snapshot_of_waits (q := q) (by cases q <;> first | exact absurd rfl hq | simp only [h]) hx

/-- P0's request waits for its owner, its reply place held. -/
def handing (h : Handed) (s : State) : State := updLink .p0 (fun l => { l with held := 1 }) (setHanded .p0 (some h) s)

/-- The last transition of a halt waiting, for a session that is OPEN and for one that has ended; and two waiting. -/
theorem witness_HaltEndsWhenRouted :
    (∀ n ∈ [0, 9], ∀ ts ∈ [[ofGroup4 .release], [ofGroup4 .release, ofGroup4 .release]],
      quiet (queued ts (halting n (scanning .active .haltRouting admin)))) ∧
    OnlySnapshotsWait (queued [ofGroup4 .release] (halting 0 (scanning .active .haltRouting admin))) (fun _ => True) ∧
    isLive (halting 0 (scanning .active .haltRouting admin)) .p0 0 = true ∧ isLive (halting 9 (scanning .active .haltRouting admin)) .p0 9 = false :=
  ⟨by decide +kernel, onlySnapshotsWait_of (by decide +kernel), by decide +kernel, by decide +kernel⟩

/-- The last transition waits, and the image behind it, with and without a HALT in flight, or the halt; the image, for the idle count one frame before WATCH and
at it; and a request of P0's to the scanner behind the image. -/
theorem witness_LastRoutingTakesWhatWaited :
    (∀ s ∈ [scanning .active .imageWaiting admin, halting 0 (scanning .active .imageWaiting admin), halting 9 (scanning .active .imageWaiting admin),
        halting 0 (scanning .active .haltWaiting admin), nearWatch 14 (scanning .active .imageWaiting admin),
        nearWatch 15 (scanning .active .imageWaiting admin)],
      quiet (queued [ofGroup4 .press] s) ∧ s.mgr.handed = PerPort.all none) ∧
    (after .routeTransition (queued [ofGroup4 .press] (nearWatch 15 (scanning .active .imageWaiting admin)))).scan.state = .watch ∧
    (after .routeTransition (queued [ofGroup4 .press] (nearWatch 14 (scanning .active .imageWaiting admin)))).scan.phase = .slot 0 ∧
    ∀ ask ∈ [Ask.scanSetup ScanSetup.default, .scanControl .start, .scanControl .halt, .scanControl .watch],
      ∀ s ∈ [nearWatch 14 (scanning .active .imageWaiting admin), nearWatch 15 (scanning .active .imageWaiting admin)],
        let u := handing { req := { port := .p0, session := 0, typ := typeScanControl, seq := 1, payload := [] }, ask } (queued [ofGroup4 .press] s)
        quiet u ∧ isLive u .p0 0 = true ∧ 0 < (u.link.get .p0).held ∧ panelHere u ∧ u.scan.driveLines = 0 ∧ u.scan.lampLines = 0 ∧
          u.scan.halt = none ∧ u.mgr.inbox.get .p0 = [] ∧ u.mgr.handed.get .p1 = none ∧ u.mgr.handed.get .p2 = none := by
  decide +kernel

/-- WATCH with a lit demand signalled. -/
def watching : State := { scanning .watch .idle admin with scan := { (scanning .watch .idle admin).scan with litDemands := 1 } }

theorem panelSound_watching : PanelSound watching := panelSound_of (by decide +kernel) ⟨rfl, rfl⟩

theorem witness_WatchSampleAndLitDemand_sample :
    (watching.scan.state = .watch ∧ PanelSound watching ∧ Settled watching ∧ watching.scan.setup.columnMask ≠ 0 ∧ (0xFE : BitVec 8) ≠ 0xFF) ∧
      (0xFF : BitVec 8) = 0xFF ∧ admin.scan.state ≠ .watch :=
  ⟨⟨rfl, panelSound_watching, settled_of (by decide +kernel), by decide +kernel, by decide⟩, rfl, by decide⟩

theorem witness_WatchSampleAndLitDemand_demand :
    (watching.scan.litDemands = 0 + 1 ∧ watching.scan.state = .watch ∧ PanelSound watching ∧ Settled watching) ∧
    (let s := { admin with scan := { admin.scan with litDemands := 1 } }
     s.scan.litDemands = 0 + 1 ∧ s.scan.state ≠ .watch ∧ Settled s) ∧
    admin.scan.litDemands = 0 :=
  ⟨⟨rfl, rfl, panelSound_watching, settled_of (by decide +kernel)⟩, ⟨rfl, by decide, settled_of (by decide +kernel)⟩, rfl⟩

/-! ## Witnesses: requests -/

theorem witness_ScanSetupRequest :
    (Ready admin .p0 1 ∧ isAdmin admin .p0 ∧ admin.scan.phase ≠ .imageWaiting ∧ admin.scan.state = .halted) ∧
    (let s := scanning .active (.slot 3) admin
     Ready s .p0 1 ∧ isAdmin s .p0 ∧ s.scan.phase ≠ .imageWaiting ∧ s.scan.state ≠ .halted) ∧
    (let s := queued [ofGroup4 .press] (halting 0 (scanning .active .imageWaiting admin))
     Ready s .p0 1 ∧ s.scan.halt.isSome = true ∧ s.scan.state ≠ .halted) ∧
    decodeRequest typeScanSetup [3, 1, 15, 1, 0, 0xFF, 255, 3, 255] =
      .ok (.scanSetup { framePeriod := .ms16, np := 1, nr := 15, matrix := .isolated, columnMask := 0x00FF, idleLimit := 255
                        watchPeriod := .ms128, stuckLimit := 255 }) :=
  ⟨⟨ready_admin, rfl, by decide, rfl⟩, ⟨ready_of (by decide +kernel), rfl, by decide, by decide⟩,
    ⟨ready_of (by decide +kernel), rfl, by decide⟩, by decide +kernel⟩

/-- With a HALT in flight a request to the scanner is refused at once, beside an image that waits too (R11, R17). -/
theorem test_requests_beside_a_halt_in_flight :
    let s := queued [ofGroup4 .press] (halting 0 (scanning .active .imageWaiting admin))
    ((after (.scanControlStart .p0 1 0 []) s).link.get .p0).replies =
      [{ session := 0, typ := typeScanControl, seq := 1, status := .busy, data := .scan .active }] ∧
    ((after (.scanSetup .p0 1 0 [3, 1, 15, 1, 0, 0xFF, 255, 3, 255]) s).link.get .p0).replies =
      [{ session := 0, typ := typeScanSetup, seq := 1, status := .scanRunning, data := .none }] := by
  decide +kernel

/-- The three scan states, and a HALT in flight, beside an image that waits too; in ACTIVE with a quiet panel and with a key held. -/
theorem witness_ScanControlRequests :
    SessionsSound admin ∧ isAdmin admin .p0 ∧
    (∀ s ∈ [admin, scanning .watch .idle admin, scanning .active (.slot 3) admin, halting 0 (scanning .active (.slot 3) admin),
        queued [ofGroup4 .press] (halting 0 (scanning .active .imageWaiting admin)),
        withKey 0 { KeyRec.atReset with state := .down } 0 (scanning .active (.slot 3) admin)],
      accepts s 1 ∧ s.mgr.resetInFlight = none ∧ (s.scan.phase ≠ .imageWaiting ∨ s.scan.halt.isSome = true) ∧ s.mgr.sessions = admin.mgr.sessions) ∧
    (allUp admin = true ∧ anyLamp admin = false) ∧
    allUp (withKey 0 { KeyRec.atReset with state := .down } 0 (scanning .active (.slot 3) admin)) = false :=
  ⟨sessionsSound_admin, rfl, by decide +kernel, by decide +kernel, by decide +kernel⟩

theorem witness_GroupSetupRequest :
    Ready admin .p0 1 ∧ isAdmin admin .p0 ∧ decodeRequest typeGroupSetup [31, 0, 1] = .ok (.groupSetup 31 0 1) ∧
      decodeRequest typeGroupSetup [0, 255, 255] = .ok (.groupSetup 0 255 255) :=
  ⟨ready_admin, rfl, by decide +kernel, by decide +kernel⟩

/-- A port that is no member, a STREAM member and a LATCHED one; both modes asked. -/
theorem witness_JoinAndLeaveRequests :
    (Ready user .p0 1 ∧ memberMode user 4 .p0 = none) ∧
    (Ready (joined .stream user) .p0 1 ∧ (memberMode (joined .stream user) 4 .p0).isSome = true) ∧
    (Ready (joined .latched user) .p0 1 ∧ (memberMode (joined .latched user) 4 .p0).isSome = true) ∧
    decodeRequest typeJoin [4, 0] = .ok (.join 4 .stream) ∧ decodeRequest typeJoin [31, 1] = .ok (.join 31 .latched) ∧
    decodeRequest typeLeave [4] = .ok (.leave 4) :=
  ⟨⟨ready_user, by decide +kernel⟩, ⟨ready_of (by decide +kernel), by decide +kernel⟩, ⟨ready_of (by decide +kernel), by decide +kernel⟩,
    by decide +kernel, by decide +kernel, by decide +kernel⟩

theorem membersSound_joined : MembersSound (joined .latched admin) := membersSound_of (by decide +kernel) (by decide +kernel)

theorem witness_DissolveRequest :
    Ready (joined .latched admin) .p0 1 ∧ isAdmin (joined .latched admin) .p0 ∧ MembersSound (joined .latched admin) ∧
      decodeRequest typeDissolve [4] = .ok (.dissolve 4) ∧ decodeRequest typeDissolve [31] = .ok (.dissolve 31) :=
  ⟨ready_of (by decide +kernel), rfl, membersSound_joined, by decide +kernel, by decide +kernel⟩

theorem witness_GrantRequest :
    Ready user .p0 1 ∧ Ready adminIdle .p0 1 ∧ decodeRequest typeGrant [0] = .ok (.grant 0) ∧ decodeRequest typeGrant [127] = .ok (.grant 127) :=
  ⟨ready_user, ready_adminIdle, by decide +kernel, by decide +kernel⟩

/-- A queue below 64 and one of 64. -/
theorem witness_DeliveryUnitEvents :
    ({ Delivery.empty with queue := List.replicate 63 (.loss 0 0 1) } : Delivery).queue.length < 64 ∧
      64 ≤ ({ Delivery.empty with queue := List.replicate 64 (.loss 0 0 1) } : Delivery).queue.length := by
  decide +kernel

theorem witness_ChangedPost :
    inSet ({ Delivery.empty with armed := 0x80000000 } : Delivery).armed 31 = true ∧ inSet Delivery.empty.armed 0 = false := by
  decide +kernel

/-- None waiting; one and two waiting, for a member of each mode, of each kind that differs, and without a group. -/
theorem witness_RouteTransition :
    (admin.disp.waiting = [] ∧ Settled admin) ∧
    (∀ t ∈ [ofGroup4 .press, ofGroup4 .repeated, { ofGroup4 .press with group := none }, { ofGroup4 .stuck with group := some 31 }],
      ∀ rest ∈ [[], [ofGroup4 .release]], quiet (queued (t :: rest) (joined .latched admin)) ∧ quiet (queued (t :: rest) (joined .stream admin))) ∧
    memberMode (joined .latched admin) 4 .p0 = some .latched ∧ memberMode (joined .stream admin) 4 .p0 = some .stream ∧
    memberMode admin 31 .p0 = none ∧ (∀ p : Port, admin.mgr.handed.get p = none) ∧ admin.scan.phase = .idle :=
  ⟨⟨rfl, settled_of (by decide +kernel)⟩, by decide +kernel, by decide +kernel,
    by decide +kernel, by decide +kernel, Port.forall_iff.mpr ⟨rfl, rfl, rfl⟩, rfl⟩

/-- A USER that is no member, a STREAM member, a LATCHED member, and an ADMIN that is no member. -/
theorem witness_SnapshotRequest :
    Ready user .p0 1 ∧ Ready (joined .stream user) .p0 1 ∧ Ready (joined .latched user) .p0 1 ∧ Ready admin .p0 1 ∧
      ¬isAdmin user .p0 ∧ isAdmin admin .p0 ∧ memberMode user 4 .p0 = none ∧ user.disp.snapshots.get .p0 = none ∧
      decodeRequest typeSnapshot [4] = .ok (.snapshot 4) :=
  ⟨ready_user, ready_of (by decide +kernel), ready_of (by decide +kernel), ready_admin, by unfold isAdmin; decide, rfl, by decide +kernel, rfl,
    by decide +kernel⟩

/-- A SNAPSHOT of P0 under this session in flight, its reply place held. -/
def snapping (session : Nat) (s : State) : State :=
  updLink .p0 (fun l => { l with held := 1 })
    (setSnapshot .p0 (some { req := { port := .p0, session, typ := typeSnapshot, seq := 1, payload := [4] }, group := 4 }) s)

theorem witness_SnapshotRead :
    (user.disp.snapshots.get .p0 = none ∧ Settled user) ∧
    (∀ n ∈ [0, 9], quiet (snapping n user) ∧ (snapping n user).mgr.handed.get .p0 = none) ∧
    (let h : Handed := { req := { port := .p0, session := 0, typ := typeMapKeys, seq := 2, payload := [0, 4] }, ask := .mapKeys [(0, some 4)] }
     quiet (setHanded .p0 (some h) (snapping 0 (queued [ofGroup4 .press] admin)))) ∧
    isLive (snapping 0 user) .p0 0 = true ∧ isLive (snapping 9 user) .p0 9 = false ∧ 0 < ((snapping 0 user).link.get .p0).held :=
  ⟨⟨rfl, settled_of (by decide +kernel)⟩, by decide +kernel, by decide +kernel, by decide +kernel, by decide +kernel, by decide +kernel⟩

/-- P0's second SNAPSHOT waits for the read of its first, which stands under this session; so many reply places are held. -/
def snappingTwice (session held : Nat) (s : State) : State :=
  updLink .p0 (fun l => { l with held })
    (setHanded .p0 (some { req := { port := .p0, session := 0, typ := typeSnapshot, seq := 2, payload := [4] }, ask := .snapshot 4 })
      (snapping session s))

/-- A later SNAPSHOT waits behind the read: of an ADMIN, of a LATCHED member and of a USER that is no member; the read's session OPEN and ended. -/
theorem witness_SnapshotRead_waiting :
    ∀ s ∈ [admin, joined .latched user, user], ∀ n ∈ [0, 9],
      let u := snappingTwice n 2 s
      quiet u ∧ (u.mgr.handed.get .p0).isSome = true ∧ u.mgr.inbox.get .p0 = [] ∧ isLive u .p0 0 = true ∧
        (u.disp.snapshots.get .p0).isSome = true ∧ 2 ≤ (u.link.get .p0).held := by
  decide +kernel

/-- The last transition waits while P0's second SNAPSHOT waits for its first read: nothing else does. -/
theorem witness_OnlySnapshotsWait :
    let s := queued [ofGroup4 .press] (snappingTwice 0 2 (scanning .active .imageWaiting admin))
    quiet s ∧ OnlySnapshotsWait s (fun _ => True) :=
  ⟨by decide +kernel, onlySnapshotsWait_of (by decide +kernel)⟩

/-- A GRANT of P0 behind its second SNAPSHOT, accepted before a RESET of P1 (`passed`) or after it. -/
def grantBehind (passed : Bool) : State :=
  let w : Queued := { req := { port := .p0, session := 0, typ := typeGrant, seq := 3, payload := [5] }, passed }
  let s := setInbox .p0 [w] (snappingTwice 0 3 user)
  { s with mgr := { s.mgr with resetInFlight := some (.p1, 0) } }

theorem witness_ResetRequest_waiting :
    ∀ passed ∈ [true, false],
      let s := grantBehind passed
      quiet s ∧ (s.disp.snapshots.get .p0).isSome = true ∧ (s.mgr.handed.get .p0).isSome = true ∧ isLive s .p0 0 = true ∧
        3 ≤ (s.link.get .p0).held ∧ decodeRequest typeGrant [5] = .ok (.grant 5) ∧ s.mgr.resetInFlight.isSome = true := by
  decide +kernel

/-- A GRANT accepted before P1's RESET is answered OK when its turn comes, one accepted after it RESETTING (R153). -/
theorem test_requests_before_a_reset_are_answered :
    ((after (.snapshotRead .p0) (grantBehind true)).delivery.get .p0).credits = 5 ∧
    (((after (.snapshotRead .p0) (grantBehind false)).link.get .p0).replies.map Reply.status) = [.ok, .notMember, .resetting] := by
  decide +kernel

/-- The RESET marks what waits on the other ports, and nothing on its own. -/
theorem test_reset_lets_others_pass :
    let w (p : Port) : Queued := { req := { port := p, session := 0, typ := typeStatus, seq := 3, payload := [] }, passed := false }
    let t := takeReset { port := .p0, session := 0, typ := typeReset, seq := 4, payload := [] } (setInbox .p1 [w .p1] (setInbox .p0 [w .p0] admin))
    t.mgr.inbox.get .p0 = [w .p0] ∧ t.mgr.inbox.get .p1 = [{ w .p1 with passed := true }] := by
  decide +kernel

/-- While the image of frame 7 waits, a snapshot read carries frame 6 (R78); else the scanner's number. -/
theorem test_snapshot_frame_number :
    let numbered (ph : Phase) : State := { scanning .active ph user with scan := { (scanning .active ph user).scan with frameNumber := 7 } }
    lastImageFrame (numbered .imageWaiting) = 6 ∧ lastImageFrame (numbered .frameEnd) = 7 := by
  decide +kernel

theorem witness_MapLampsRequest :
    Ready admin .p0 1 ∧ isAdmin admin .p0 ∧
      decodeRequest typeMapLamps [0, 255, 127, 127, 31, 255] = .ok (.mapLamps [(0, none, some 127), (127, some 31, none)]) :=
  ⟨ready_admin, rfl, by decide +kernel⟩

/-- Lamp 12 is in group 4, lamp 13 of it in FOLLOW, lamp 14 in group 5, lamp 15 in none. -/
def lamped (s : State) : State :=
  setLamp 12 { group := some 4, mode := .switched .off } (setLamp 13 { group := some 4, mode := .follow 1 }
    (setLamp 14 { group := some 5, mode := .follow 1 } s))

theorem witness_LampsRequest :
    Ready (lamped (joined .stream user)) .p0 1 ∧
    decodeRequest typeLamps [12, 1, 13, 0, 14, 3] = .ok (.lamps [(12, .on), (13, .off), (14, .blinkB)]) ∧
    ((lamped user).lamps[12].group = some 4 ∧ (memberMode (joined .stream user) 4 .p0).isSome = true) ∧
    (lamped user).lamps[13].mode = .follow 1 ∧ ((lamped user).lamps[14].group = some 5 ∧ memberMode (joined .stream user) 5 .p0 = none) ∧
    (lamped user).lamps[15].group = none ∧ ¬isAdmin user .p0 :=
  ⟨ready_of (by decide +kernel), by decide +kernel, by decide +kernel, by decide +kernel, by decide +kernel, by decide +kernel,
    by unfold isAdmin; decide⟩

theorem witness_MapKeysRequest :
    Ready admin .p0 1 ∧ isAdmin admin .p0 ∧ admin.disp.waiting = [] ∧
      decodeRequest typeMapKeys [0, 31, 127, 255] = .ok (.mapKeys [(0, some 31), (127, none)]) :=
  ⟨ready_admin, rfl, rfl, by decide +kernel⟩

/-- P0's MAP KEYS under this session waits for the Key Table. -/
def mapWaiting (session : Nat) (s : State) : State :=
  handing { req := { port := .p0, session, typ := typeMapKeys, seq := 1, payload := [0, 4] }, ask := .mapKeys [(0, some 4)] }
    (queued [ofGroup4 .press] s)

/-- A MAP KEYS waits beside each stage of a scan frame's completion, and beside none, its session OPEN and ended. -/
theorem witness_WaitingRequests_mapKeys :
    (∀ n ∈ [0, 9], ∀ s ∈ [scanning .active (.slot 3) admin, scanning .active .imageWaiting admin, halting 0 (scanning .active .imageWaiting admin),
        halting 0 (scanning .active .haltWaiting admin), halting 0 (scanning .active .haltRouting admin)],
      quiet (mapWaiting n s) ∧ panelHere (mapWaiting n s) ∧ (mapWaiting n s).mgr.inbox.get .p0 = []) ∧
    linesAllowed (mapWaiting 0 (scanning .active .imageWaiting admin)).scan ∧
    OnlySnapshotsWait (mapWaiting 0 (scanning .active .imageWaiting admin)) (· ≠ .p0) :=
  ⟨by decide +kernel, ⟨rfl, rfl⟩, onlySnapshotsWait_beside_p0 (by decide +kernel)⟩

/-- A request behind it, the LEN and TYPE of no account. -/
theorem witness_WaitingRequests_inbox :
    let s := mapWaiting 0 admin
    quiet s ∧ isOpen s .p0 = true ∧ (1 : Byte) = (s.link.get .p0).lastAccepted + 1 ∧ (s.link.get .p0).places < 4 ∧
      (s.mgr.handed.get .p0).isSome = true ∧ ackEndsReset .p0 0 s = false ∧
      (Instr.status .p0 1 0 [9]).frame? = some (.p0, ⟨typeStatus, 1, 0, [9]⟩) := by
  decide +kernel

theorem witness_WaitingRequests :
    (Ready (queued [ofGroup4 .press] admin) .p0 1 ∧ decodeRequest typeMapKeys [0, 4] = .ok (.mapKeys [(0, some 4)])) ∧
    (Ready (snapping 0 admin) .p0 1 ∧ (snapping 0 admin).disp.snapshots.get .p0 ≠ none) ∧
    (Ready (queued [ofGroup4 .press] (scanning .active .imageWaiting admin)) .p0 1 ∧
      (scanning .active .imageWaiting admin).scan.halt = none ∧ decodeRequest typeScanControl [0] = .ok (.scanControl .start)) ∧
    isLive (mapWaiting 0 admin) .p0 0 = true ∧ isLive (mapWaiting 9 admin) .p0 9 = false :=
  ⟨⟨ready_of (by decide +kernel), by decide +kernel⟩, ⟨ready_of (by decide +kernel), by decide +kernel⟩,
    ⟨ready_of (by decide +kernel), rfl, by decide +kernel⟩, by decide +kernel, by decide +kernel⟩

/-! ## Witnesses: sessions -/

/-- USER and ADMIN, on the port of the earlier session, its line SENDING or IDLE, and the ends of the RTO's range. -/
theorem witness_OpenBegins :
    (∀ s ∈ [admin, adminIdle], quiet s ∧ s.mgr.resetInFlight = none ∧ duplicateOpen s .p0 [1, 1, 0, 0] = false) ∧
    SessionsSound admin ∧ MembersSound admin ∧ SessionsSound adminIdle ∧ MembersSound adminIdle ∧
    decodeOpen [0, 255, 0x2A, 1] = .ok { role := .user, rto := 255, tag := 0x2A01 } ∧
    decodeOpen [1, 1, 0, 0] = .ok { role := .admin, rto := 1, tag := 0 } ∧ ∀ q : Port, q ≠ .p0 → admin.mgr.adminClaim ≠ some q :=
  ⟨by decide +kernel, sessionsSound_admin, membersSound_admin, sessionsSound_of (by decide +kernel) (Or.inl rfl),
    membersSound_of (by decide +kernel) (by decide +kernel), by decide +kernel, by decide +kernel,
    Port.forall_iff.mpr ⟨fun h => absurd rfl h, fun _ => by decide, fun _ => by decide⟩⟩

/-- P0's ADMIN session holds the reset in flight. -/
def resetting (s : State) : State := { s with mgr := { s.mgr with resetInFlight := some (.p0, 0) } }

/-- P1 meets P0's reset, then P0's claim, then sends an OPEN of a wrong length and one of a wrong value; P0's OPEN with the present tag is a duplicate
while its open mark stands; P0's OPEN over the session that holds the reset. -/
theorem witness_OpenNotTaken :
    (quiet (resetting admin) ∧ SessionsSound (resetting admin) ∧ MembersSound (resetting admin) ∧
      duplicateOpen (resetting admin) .p1 [0, 1, 0, 0] = false) ∧
    decodeOpen [1, 5, 0, 0] = .ok { role := .admin, rto := 5, tag := 0 } ∧ admin.mgr.adminClaim = some .p0 ∧
    decodeOpen [1, 5, 0] = .refused .badLength ∧ decodeOpen [2, 5, 0, 0] = .refused .badValue ∧ decodeOpen [0, 0, 0, 0] = .refused .badValue ∧
    (let s := updLink .p0 (fun l => { l with openMark := true }) admin
     quiet s ∧ ackEndsReset .p0 0 s = false ∧ duplicateOpen s .p0 [1, 5, 0, 7] = true) ∧
    isOpen (resetting admin) .p0 = true ∧ duplicateOpen (resetting admin) .p0 [1, 5, 0, 0] = false :=
  ⟨⟨by decide +kernel, sessionsSound_of (by decide +kernel) (Or.inr ⟨.p0, 0, rfl, rfl, rfl⟩), membersSound_of (by decide +kernel) (by decide +kernel),
      by decide +kernel⟩, by decide +kernel, rfl, by decide +kernel, by decide +kernel, by decide +kernel, by decide +kernel, by decide +kernel,
    by decide +kernel⟩

theorem witness_OwnRequests :
    Ready user .p0 1 ∧ Ready adminIdle .p0 1 ∧ (sessionOf user .p0).role = some .user ∧ isAdmin adminIdle .p0 :=
  ⟨ready_user, ready_adminIdle, rfl, rfl⟩

/-- A TYPE outside the table, a LEN that does not fit, a value out of range, and a request that needs the ADMIN role. -/
theorem witness_RefusedAtChecks :
    Ready user .p0 1 ∧ (∀ typ ∈ [(0x09 : Byte), 0x0F, 0x17, 0xFF], 0x09 ≤ typ.toNat ∧ typ.toNat ≤ 0x0F ∨ 0x17 ≤ typ.toNat) ∧
    (Instr.grant .p0 1 0 []).frame? = some (.p0, ⟨typeGrant, 1, 0, []⟩) ∧
    decodeRequest 9 [] = .refused .unknownType ∧ decodeRequest typeGrant [] = .refused .badLength ∧
    decodeRequest typeGrant [128] = .refused .badValue ∧ decodeRequest typeReset [] = .ok .reset ∧ ¬isAdmin user .p0 :=
  ⟨ready_user, by decide +kernel, rfl, by decide +kernel, by decide +kernel, by decide +kernel, by decide +kernel, by unfold isAdmin; decide⟩

theorem witness_RefusedAtChecks_resetting :
    Accepting (resetting admin) .p0 1 ∧ (resetting admin).mgr.resetInFlight.isSome = true ∧ ackEndsReset .p0 0 (resetting admin) = false ∧
      (Instr.close .p0 1 0 []).frame? = some (.p0, ⟨typeClose, 1, 0, []⟩) :=
  ⟨accepting_of (by decide +kernel), rfl, by decide +kernel, rfl⟩

/-! ## Witnesses: links -/

/-- P0's resend list holds the OK reply to a request of this TYPE, in frame SEQ 0, with its timer running and this retry count. -/
def unacked (typ : Byte) (retry : Nat) (s : State) : State :=
  updLink .p0 (fun l =>
    { l with
      resend := [{ seq := 0, body := .reply { session := 0, typ, seq := 1, status := .ok, data := .none } }], nextSeq := 1
      retransmit := l.retransmit.start l.rto, retry }) s

/-- P0's session is CLOSING. -/
def closing : State :=
  unacked typeClose 0 { State.reset with
    mgr := { Manager.atReset with
      sessions := (PerPort.all Session.atReset).set .p0 { state := .closing, role := none, tag := none, identity := some 0 } }
    link := (PerPort.all Link.atReset).set .p0 { Link.atReset with line := busyLine } }

theorem witness_AckFrame :
    (Settled closing ∧ ackEndsReset .p0 0 closing = false ∧ ackEndsClosing .p0 0 closing = true ∧ ackEndsClosing .p0 9 closing = false) ∧
    ackEndsReset .p0 0 (unacked typeReset 0 (resetting admin)) = true ∧
    (∀ f ∈ (closing.link.get .p0).resend, f.seq ≠ 9) ∧ ∃ f, (closing.link.get .p0).resend = [] ++ f :: [] ∧ f.seq = 0 :=
  ⟨⟨settled_of (by decide +kernel), by decide +kernel, by decide +kernel, by decide +kernel⟩, by decide +kernel, by decide +kernel, _, rfl, rfl⟩

theorem witness_RequestsNotAccepted :
    (let s := updLink .p0 (fun l => { l with held := 4 }) user
     quiet s ∧ isOpen s .p0 = true ∧ ackEndsReset .p0 0 s = false ∧ (1 : Byte) = (s.link.get .p0).lastAccepted + 1) ∧
    (quiet user ∧ (0 : Byte) ≠ (user.link.get .p0).lastAccepted + 1) ∧
    (quiet State.reset ∧ (sessionOf State.reset .p0).state = .closed ∧ lineIdle .p0 State.reset = true ∧ ackEndsReset .p0 0 State.reset = false) ∧
    (quiet closing ∧ (sessionOf closing .p0).state = .closing ∧ ackEndsClosing .p0 9 closing = false) ∧
    (ackEndsReset .p0 0 closing = false ∧ ackEndsClosing .p0 0 closing = true) := by
  decide +kernel

/-- The timer stopped; running below the limit with the line SENDING and IDLE; and at the limit in each session state that has a clause. -/
theorem witness_RetransmitExpiry :
    (user.link.get .p0).retransmit.running = false ∧
    (∀ s ∈ [unacked typeGrant 2 user, unacked typeGrant 2 adminIdle],
      quiet s ∧ (s.link.get .p0).retransmit.running = true ∧ (s.link.get .p0).retry + 1 < 4) ∧
    (∀ s ∈ [unacked typeGrant 3 user, unacked typeReset 3 (resetting admin), unacked typeClose 3 closing],
      quiet s ∧ (s.link.get .p0).retransmit.running = true ∧ 4 ≤ (s.link.get .p0).retry + 1) := by
  decide +kernel

/-- P0 owes an acknowledgement, its holdoff running. -/
def owing (s : State) : State := updLink .p0 Link.oweAck s

theorem witness_HoldoffAndFrameEnd :
    (user.link.get .p0).holdoff.running = false ∧ (quiet (owing user) ∧ ((owing user).link.get .p0).holdoff.running = true) ∧
    (quiet (owing adminIdle) ∧ lineIdle .p0 (owing adminIdle) = true ∧ ((owing adminIdle).link.get .p0).ackOwed = true) ∧
    lineIdle .p0 user = false ∧ (user.link.get .p0).burst = none ∧ lineIdle .p0 adminIdle = true ∧
    ((updLink .p0 (fun l => { l with burst := some 1 }) (unacked typeGrant 1 user)).link.get .p0).burst = some 1 := by
  decide +kernel

/-- Each rank's condition, alone. -/
theorem witness_ChoiceOrder :
    (let l := { (unacked typeGrant 1 user).link.get .p0 with burst := some 0 }
     l.burst = some 0 ∧ l.resend[0]?.isSome = true) ∧
    (rank1 { Link.atReset with openRefused := some .busy } = none) ∧
    (rank1 { Link.atReset with noSession := true } = none ∧ ({ Link.atReset with noSession := true } : Link).openRefused = none) ∧
    (Link.atReset.burst = none ∧ Link.atReset.resend.length < 8 ∧ newFrame? 0 true false false ≠ none) ∧
    newFrame? 0 false false false = none := by
  decide +kernel

/-- A REPLY, a NOTICE and a REPORT as the next new frame, the counter at its ends. -/
theorem witness_NewFrameOrder :
    newFrame? 3 true true true = some .reply ∧ newFrame? 4 true true true = some .notice ∧ newFrame? 4 true false true = some .report ∧
      newFrame? 4 true false false = some .reply ∧ Link.atReset.burst = none ∧ Link.atReset.resend.length < 8 := by
  decide +kernel

/-- P0's framer stands so. -/
def framing (fr : Framer) : State := setFramer .p0 fr State.reset

/-- HUNT; COLLECT before the LEN byte, within a frame, one byte before its end; and a bad frame held. -/
theorem witness_FramerByteAndGap :
    (framerOf State.reset .p0).state = .hunt ∧ (framerOf State.reset .p0).gapRunning = false ∧
    (framerOf (framing ⟨.collect, [], true, []⟩) .p0).holdsBadFrame = false ∧
    (let fr := framerOf (framing ⟨.collect, [3, 0, 0, 0], true, []⟩) .p0
     fr.state = .collect ∧ fr.buffer = 3 :: [0, 0, 0] ∧ [(0 : Byte), 0, 0].length + 1 < (3 : Byte).toNat + 2 ∧ fr.gapRunning = true) ∧
    (let fr := framerOf (framing ⟨.collect, [3, 0, 0, 0, 0], true, []⟩) .p0
     fr.buffer = 3 :: [0, 0, 0, 0] ∧ [(0 : Byte), 0, 0, 0].length + 1 = (3 : Byte).toNat + 2 ∧ goodFrame? (fr.buffer ++ [0]) = none) ∧
    (framerOf (framing ⟨.collect, [3, 0, 0, 0, 0, 0], false, []⟩) .p0).holdsBadFrame = true := by
  decide +kernel

/-- A bad frame without a SYNC; one with a whole good frame in it; one with a frame broken off. -/
theorem witness_BadCrcFrame :
    (framerOf (framing ⟨.collect, [3, 0, 0, 0, 0, 0], false, []⟩) .p0).holdsBadFrame = true ∧
    (framerOf (framing ⟨.collect, [6, 1] ++ frameBytesOf ⟨typeAck, 0, 0, []⟩, false, []⟩) .p0).holdsBadFrame = true ∧
    (framerOf (framing ⟨.collect, [3, 1, 2] ++ 0xA7 :: 67 :: [0], false, []⟩) .p0).holdsBadFrame = true ∧
    (RxFrame.fits ⟨typeAck, 0, 0, []⟩ = true ∧ (Instr.ack .p0 0 0 []).frame? = some (.p0, ⟨typeAck, 0, 0, []⟩)) ∧
    (framerOf State.reset .p0).holdsBadFrame = false := by
  decide +kernel

/-- The shortest and the longest frame. -/
theorem witness_FrameBytesDeliverFrame :
    framerOf State.reset .p0 = Framer.atReset ∧ RxFrame.fits ⟨typeAck, 0, 0, []⟩ = true ∧
      RxFrame.fits ⟨typeLamps, 0, 0, List.replicate 64 0⟩ = true ∧
      (Instr.lamps .p0 0 0 (List.replicate 64 0)).frame? = some (.p0, ⟨typeLamps, 0, 0, List.replicate 64 0⟩) := by
  decide +kernel

theorem witness_CrcOfFrame : ([] : List Byte).length + 3 = (3 : Byte).toNat ∧ (List.replicate 64 (0 : Byte)).length + 3 = (67 : Byte).toNat := by
  decide +kernel

/-- Requests in range at the ends of their ranges, and payloads that each stage refuses. -/
theorem witness_DecodeOfWritten :
    (Ask.grant 127).inRange = true ∧ (Ask.groupSetup 31 255 1).inRange = true ∧ (Ask.lamps (List.replicate 32 (127, .blinkB))).inRange = true ∧
      (Ask.mapLamps (List.replicate 21 (0, none, none))).inRange = true ∧ decodeRequest typeGrant [127] = .ok (.grant 127) ∧
      decodeOpen [0, 255, 0, 0] = .ok ⟨.user, 255, 0⟩ := by
  decide +kernel

/-- Each stage's refusals, at the ends of the TYPE and LEN ranges, and payloads of the longest lists that pass. -/
theorem witness_DecodeRefusals :
    (∀ typ ∈ [(0x00 : Byte), 0x09, 0x0F, 0x17], decodeRequest typ [] = .refused .unknownType) ∧
    decodeRequest 0x07 (List.replicate 3 0) = .refused .badLength ∧ decodeRequest 0x11 (List.replicate 4 0) = .refused .badLength ∧
    decodeRequest 0x11 (List.replicate 66 0) = .refused .badLength ∧ decodeRequest 0x07 (List.replicate 64 200) = .refused .badValue ∧
    decodeRequest 0x17 [] = .refused .unknownType ∧ decodeRequest typeLamps [] = .refused .badLength ∧
      decodeRequest typeLamps (List.replicate 66 0) = .refused .badLength ∧ decodeRequest typeJoin [32, 0] = .refused .badValue ∧
      decodeOpen [] = .refused .badLength ∧ decodeOpen [0, 0, 0, 0] = .refused .badValue := by
  decide +kernel

/-! ## Witnesses: what a step keeps -/

theorem ranges_admin : Ranges admin := by
  refine ⟨by decide +kernel, by decide +kernel, ?_, ?_, by decide +kernel, ?_, ?_⟩
  · unfold KeyRec.inRange
    decide +kernel
  · unfold GroupRec.inRange
    decide +kernel
  · unfold Delivery.inRange Link.inRange
    exact Port.forall_iff.mpr ⟨by decide +kernel, by decide +kernel, by decide +kernel⟩
  · intro p h hh
    cases p <;> cases hh

theorem framerSound_atReset : Framer.atReset.sound := ⟨fun _ => rfl, rfl, fun _ => rfl, fun _ _ h => nomatch h⟩

/-- A Link Unit as after reset, but for its line. -/
theorem linkSound_of_line {line : Line} (h : ∀ (f : TxFrame) (n : Nat), line = .sending f n → f.body.fits ∧ n = f.size) :
    ({ Link.atReset with line := line } : Link).sound :=
  ⟨fun _ hi => absurd hi (Nat.not_lt_zero _), ⟨fun hr => Bool.noConfusion hr, fun hr => absurd rfl hr.1⟩,
    fun i hb => (nomatch (show (none : Option Nat) = some i from hb)), fun hr => Bool.noConfusion hr,
    fun _ hf => (List.not_mem_nil hf).elim, h, framerSound_atReset⟩

theorem linksSound_admin : LinksSound admin := by
  have hb : ∀ (f : TxFrame) (n : Nat), busyLine = .sending f n → f.body.fits ∧ n = f.size := by
    intro f n h
    unfold busyLine at h
    cases h
    exact ⟨by unfold Body.fits; decide, rfl⟩
  have hi : ∀ (f : TxFrame) (n : Nat), Line.idle = .sending f n → f.body.fits ∧ n = f.size := fun _ _ h => nomatch h
  exact Port.forall_iff.mpr ⟨linkSound_of_line hb, linkSound_of_line hi, linkSound_of_line hi⟩

/-- A state that meets every condition a step keeps, with a command waiting. -/
theorem witness_StepKeeps :
    Ranges admin ∧ PanelSound admin ∧ SessionsSound admin ∧ MembersSound admin ∧ LinksSound admin ∧ Settled admin ∧
      ∃ t, step { admin with pending := [.grant .p0 1 0 [5]] } = .next t :=
  ⟨ranges_admin, panelSound_of (by decide +kernel) ⟨rfl, rfl⟩, sessionsSound_admin, membersSound_admin, linksSound_admin,
    settled_of (by decide +kernel), _, rfl⟩

end Sys2Proof.Tests
end

/-! ## Columns, rows and raw bits of keys (R3, R25) -/

namespace Sys2Proof.Machine

@[simp] theorem columnOf_keyAt (c : Column) (r : Fin 8) : columnOf (keyAt c r) = c := by
  apply Fin.ext
  simp only [columnOf, keyAt]
  omega

@[simp] theorem rowOf_keyAt (c : Column) (r : Fin 8) : rowOf (keyAt c r) = r := by
  apply Fin.ext
  simp only [rowOf, keyAt]
  omega

@[simp] theorem keyAt_columnOf_rowOf (k : Key) : keyAt (columnOf k) (rowOf k) = k := by
  apply Fin.ext
  simp only [columnOf, rowOf, keyAt]
  omega

theorem rawBit_columnOf_rowOf (raw : BitVec 128) (k : Key) : rawBit raw (columnOf k) (rowOf k) = raw.getLsbD k.val := by
  rw [rawBit, keyAt_columnOf_rowOf]

/-- A byte shifted to a column's place has its bits at the keys of that column and 0 at every other key (R3). -/
theorem rawBit_columnByte (w : BitVec 8) (c c' : Column) (r : Fin 8) :
    rawBit (w.zeroExtend 128 <<< (8 * c.val)) c' r = (decide (c' = c) && w.getLsbD r.val) := by
  simp only [rawBit, keyAt, BitVec.truncate_eq_setWidth, BitVec.getLsbD_shiftLeft, BitVec.getLsbD_setWidth]
  by_cases hc : c' = c
  · subst hc
    have hoff : c'.val * 8 + r.val - 8 * c'.val = r.val := by omega
    have hin : c'.val * 8 + r.val < 128 := by omega
    have hge : ¬ c'.val * 8 + r.val < 8 * c'.val := by omega
    have hr : r.val < 128 := by omega
    simp only [hoff, hin, hge, hr, decide_true, decide_false, Bool.not_false, Bool.true_and]
  · have hne : c'.val ≠ c.val := fun h => hc (Fin.ext h)
    rcases Nat.lt_or_gt_of_ne hne with hlt | hgt
    · have hbelow : c'.val * 8 + r.val < 8 * c.val := by omega
      simp only [hbelow, hc, decide_true, decide_false, Bool.not_true, Bool.and_false, Bool.false_and]
    · have habove : 8 ≤ c'.val * 8 + r.val - 8 * c.val := by omega
      simp only [BitVec.getLsbD_of_ge w _ habove, hc, decide_false, Bool.and_false, Bool.false_and]

/-- Recording a column writes that column's eight bits and no other: each is the inverse of its sense line in a driven slot, 0 in an idle one (R3). -/
theorem rawBit_recordColumn (driven : Bool) (sense : BitVec 8) (c : Column) (recorded : BitVec 128) (c' : Column) (r : Fin 8) :
    rawBit (recordColumn driven sense c recorded) c' r =
      if c' = c then driven && !sense.getLsbD r.val else rawBit recorded c' r := by
  have hmask : rawBit (0xFF#128 <<< (8 * c.val)) c' r = decide (c' = c) := by
    have hones : (0xFF#8).getLsbD r.val = true := by
      revert r
      decide
    rw [show (0xFF#128) = (0xFF#8).zeroExtend 128 from rfl, rawBit_columnByte, hones, Bool.and_true]
  have hsampled : rawBit (if driven then (~~~sense).zeroExtend 128 <<< (8 * c.val) else 0) c' r =
      (driven && (decide (c' = c) && !sense.getLsbD r.val)) := by
    cases driven with
    | false => exact BitVec.getLsbD_zero
    | true => rw [if_pos rfl, rawBit_columnByte, BitVec.getLsbD_not, decide_eq_true r.isLt, Bool.true_and, Bool.true_and]
  have hsplit : rawBit (recordColumn driven sense c recorded) c' r =
      (rawBit recorded c' r && !rawBit (0xFF#128 <<< (8 * c.val)) c' r ||
        rawBit (if driven then (~~~sense).zeroExtend 128 <<< (8 * c.val) else 0) c' r) := by
    simp only [rawBit, recordColumn, BitVec.getLsbD_or, BitVec.getLsbD_and, BitVec.getLsbD_not, decide_eq_true (keyAt c' r).isLt,
      Bool.true_and]
  rw [hsplit, hmask, hsampled]
  by_cases hc : c' = c <;> simp [hc]

/-! ## Suspect rectangles (R24, R25) -/

theorem inRectangle_iff (raw : BitVec 128) (c : Column) (r : Fin 8) :
    inRectangle raw c r = true ↔
      rawBit raw c r = true ∧
        ∃ (c' : Column) (r' : Fin 8), c' ≠ c ∧ r' ≠ r ∧ rawBit raw c r' = true ∧ rawBit raw c' r = true ∧ rawBit raw c' r' = true := by
  simp only [inRectangle, Bool.and_eq_true, List.any_eq_true, List.mem_finRange, true_and, bne_iff_ne]
  constructor
  · rintro ⟨hk, c', ⟨hc, hcol⟩, r', ⟨hr, hrow⟩, hopp⟩
    exact ⟨hk, c', r', hc, hr, hrow, hcol, hopp⟩
  · rintro ⟨hk, c', r', hc, hr, hrow, hcol, hopp⟩
    exact ⟨hk, c', ⟨hc, hcol⟩, r', ⟨hr, hrow⟩, hopp⟩

theorem suspectIn_plain_keyAt (raw : BitVec 128) (c : Column) (r : Fin 8) :
    suspectIn .plain raw (keyAt c r) = inRectangle raw c r := by
  simp only [suspectIn, columnOf_keyAt, rowOf_keyAt]

@[simp] theorem suspectIn_isolated (raw : BitVec 128) (k : Key) : suspectIn .isolated raw k = false := rfl

/-- A key whose raw bit is 0 is in no suspect rectangle, whatever the matrix type (R25). -/
theorem suspectIn_of_open (m : MatrixType) {raw : BitVec 128} {k : Key} (h : raw.getLsbD k.val = false) :
    suspectIn m raw k = false := by
  cases m with
  | isolated => rfl
  | plain => simp only [suspectIn, inRectangle, rawBit_columnOf_rowOf, h, Bool.false_and]

/-! ## The end of a column slot -/

theorem exec_columnSlotEnd (sense : BitVec 8) (s : State) : exec (.columnSlotEnd sense) s = execColumnSlotEnd sense s := rfl

theorem exec_columnSlotEnd_of_slot {s : State} {c : Column} (h : s.scan.phase = .slot c) (sense : BitVec 8) :
    exec (.columnSlotEnd sense) s = .next (endSlot sense c s) := by
  simp only [exec_columnSlotEnd, execColumnSlotEnd, h]

/-- What the image holds at the end of a slot, whether another slot follows or the frame has ended. -/
theorem endSlot_recorded (sense : BitVec 8) (c : Column) (s : State) :
    (endSlot sense c s).scan.recorded = recordColumn (s.scan.setup.columnMask.getLsbD c.val) sense c s.scan.recorded := by
  unfold endSlot
  split <;> rfl

theorem rawBit_endSlot_of_disabled {s : State} {c : Column} (h : s.scan.setup.columnMask.getLsbD c.val = false)
    (sense : BitVec 8) (r : Fin 8) : rawBit (endSlot sense c s).scan.recorded c r = false := by
  rw [endSlot_recorded, rawBit_recordColumn, if_pos rfl, h, Bool.false_and]

/-- Settles O6: the rectangle test read as its two quantifiers, and the slot's end, which records 0 for an idle slot. -/
theorem ghostRectangles : Obligations.GhostRectangles := by
  refine ⟨fun raw c r => ?_, suspectIn_isolated, fun s sense c r hslot hmask => ?_⟩
  · rw [suspectIn_plain_keyAt, inRectangle_iff]
  · have hopen := rawBit_endSlot_of_disabled hmask sense r
    exact ⟨_, exec_columnSlotEnd_of_slot hslot sense, hopen, suspectIn_of_open _ hopen⟩

/-! ## The press debounce and the step of a key that is not held (R28 to R30, R33) -/

/-- The first closed image of a press: with Np in its range it has reached Np exactly when Np is 1 (R29). -/
theorem pressTo_one {su : ScanSetup} (h : 1 ≤ su.np) (delay : Nat) (k : KeyRec) :
    pressTo su delay 1 k =
      if su.np = 1 then ({ k with state := .down, count := 0, stuckCount := 0, countdown := delay }, some (.press, Flags.none))
      else ({ k with state := .pressing, count := 1 }, none) := by
  have hreached : su.np ≤ 1 ↔ su.np = 1 := by omega
  simp only [pressTo, hreached]

theorem ScanSetup.one_le_np {su : ScanSetup} (h : su.inRange = true) : 1 ≤ su.np := (of_decide_eq_true h).1

section StepKey

variable {su : ScanSetup} {delay interval : Nat} {raw suspect : Bool} {k : KeyRec}

theorem stepKey_up (h : k.state = .up) :
    stepKey su delay interval raw suspect k =
      if suspect then ({ k with state := .suspect, count := 0 }, none)
      else if raw then pressTo su delay 1 k else (k, none) := by
  simp only [stepKey, h]

theorem stepKey_pressing (h : k.state = .pressing) :
    stepKey su delay interval raw suspect k =
      if suspect then ({ k with state := .suspect, count := 0 }, none)
      else if raw then pressTo su delay (k.count + 1) k else ({ k with state := .up, count := 0 }, none) := by
  simp only [stepKey, h]

theorem stepKey_suspect (h : k.state = .suspect) :
    stepKey su delay interval raw suspect k =
      if suspect then (k, none)
      else if raw then pressTo su delay 1 k else ({ k with state := .up, count := 0 }, none) := by
  simp only [stepKey, h]

end StepKey

/-- Settles O7, by the key's state; an open key is in no suspect rectangle (R25), so raw bit 0 alone decides its cases. -/
theorem keyStepNotHeld : Obligations.KeyStepNotHeld := by
  intro s k hsetup x raw sus pressed
  have hnp := ScanSetup.one_le_np hsetup
  have hopen : raw = false → sus = false := suspectIn_of_open _
  have hstep : stepOne s k = stepKey s.scan.setup (delayOf s x.group) (intervalOf s x.group) raw sus x := rfl
  refine ⟨fun hup => ?_, fun hpressing => ?_, fun hsuspect => ?_⟩
  · rw [hstep, stepKey_up hup, pressTo_one hnp]
    refine ⟨fun hraw => ?_, fun _ hsus => if_pos hsus, fun hraw hsus => ?_⟩
    · simp only [hopen hraw, hraw, Bool.false_eq_true, if_false]
    · simp only [hsus, hraw, Bool.false_eq_true, if_false, if_true, pressed]
  · rw [hstep, stepKey_pressing hpressing, pressTo]
    refine ⟨fun hsus => if_pos hsus, fun hsus hraw => ?_, fun hraw => ?_⟩
    · simp only [hsus, hraw, Bool.false_eq_true, if_false, if_true, pressed]
    · simp only [hopen hraw, hraw, Bool.false_eq_true, if_false]
  · rw [hstep, stepKey_suspect hsuspect, pressTo_one hnp]
    refine ⟨fun hsus => if_pos hsus, fun hsus hraw => ?_, fun hraw => ?_⟩
    · simp only [hsus, hraw, Bool.false_eq_true, if_false, if_true, pressed]
    · simp only [hopen hraw, hraw, Bool.false_eq_true, if_false]

end Sys2Proof.Machine

/-! ## Sets of groups, and the post of a changed group (R156, R68) -/

namespace Sys2Proof.Machine

/-- A group's number has its own bit of a set and no other (R156). -/
theorem inSet_single (g g' : Group) : inSet (1#32 <<< g.val) g' = decide (g' = g) := by
  calc (1#32 <<< g.val).getLsbD g'.val
      = (BitVec.twoPow 32 g.val).getLsbD g'.val := rfl
    _ = (decide (g.val < 32) && decide (g.val = g'.val)) := BitVec.getLsbD_twoPow _ _
    _ = decide (g' = g) := by simp only [g.isLt, decide_true, Bool.true_and, Fin.ext_iff, eq_comm]

@[simp] theorem inSet_addToSet (s : GroupSet) (g g' : Group) : inSet (addToSet s g) g' = (inSet s g' || decide (g' = g)) := by
  have hor : inSet (addToSet s g) g' = (inSet s g' || inSet (1#32 <<< g.val) g') := BitVec.getLsbD_or
  rw [hor, inSet_single]

@[simp] theorem inSet_removeFromSet (s : GroupSet) (g g' : Group) :
    inSet (removeFromSet s g) g' = (inSet s g' && !decide (g' = g)) := by
  have hand : inSet (removeFromSet s g) g' = (inSet s g' && !inSet (1#32 <<< g.val) g') := by
    simp only [inSet, removeFromSet, BitVec.getLsbD_and, BitVec.getLsbD_not, g'.isLt, decide_true, Bool.true_and]
  rw [hand, inSet_single]

theorem Delivery.takeChanged_of_armed {d : Delivery} {g : Group} (h : inSet d.armed g = true) :
    d.takeChanged g = { d with armed := removeFromSet d.armed g, changed := addToSet d.changed g } := if_pos h

theorem Delivery.takeChanged_of_not_armed {d : Delivery} {g : Group} (h : inSet d.armed g = false) : d.takeChanged g = d :=
  if_neg (Bool.eq_false_iff.mp h)

/-- Settles O27, by whether the group is armed: if so, both sets are read after the move; if not, the post is without effect. -/
theorem changedPost : Obligations.ChangedPost := by
  intro d g
  refine ⟨fun harmed => ?_, Delivery.takeChanged_of_not_armed⟩
  rw [Delivery.takeChanged_of_armed harmed]
  exact ⟨fun g' => ⟨inSet_removeFromSet d.armed g g', inSet_addToSet d.changed g g'⟩, rfl⟩

end Sys2Proof.Machine

/-! ## What every step keeps: one induction for all conditions

A condition that survives the parts of a step survives the step. The parts are those of the model's own composition: a choice of frame, the next stage of the
scanner, an owner's part of a request, the taking of a good frame, and the events of the table. -/

namespace Sys2Proof.Machine

/-- A frame command is the taking of its good frame (log 1). -/
theorem exec_of_frame {i : Instr} {p : Port} {f : RxFrame} (h : i.frame? = some (p, f)) (s : State) :
    exec i s = .next (takeGoodFrame p f s) := by
  cases i with
  | openSession _ _ _ _ | close _ _ _ _ | grant _ _ _ _ | join _ _ _ _ | leave _ _ _ _ | snapshot _ _ _ _ | lamps _ _ _ _ | status _ _ _ _
  | mapKeys _ _ _ _ | mapLamps _ _ _ _ | groupSetup _ _ _ _ | dissolve _ _ _ _ | scanSetup _ _ _ _ | scanControlStart _ _ _ _
  | scanControlHalt _ _ _ _ | scanControlWatch _ _ _ _ | reset _ _ _ _ | ack _ _ _ _ | unknownTypeRequest _ _ _ _ _ =>
    cases h
    rfl
  | nrst _ | powerUp _ | snapshotRead _ | badCrcFrame _ | gapTimerExpiry _ | scanFrameCompletion | watchSample _ | litDemand | routeTransition
  | retransmitTimerExpiry _ | ackHoldoffExpiry _ | frameTransmitEnd _ | arrivingByte _ _ _ | columnSlotEnd _ => cases h

section TakeRequest

variable {w : Queued} {s : State}

theorem takeRequest_ended (h : requestLive s w.req = false) : takeRequest w s = s := by
  simp only [takeRequest, h, Bool.not_false, if_true]

theorem takeRequest_resetting (h : requestLive s w.req = true) (hr : resetRefused w s = true) :
    takeRequest w s = replyTo w.req .resetting .none s := by
  simp only [takeRequest, h, hr, Bool.not_true, Bool.false_eq_true, if_false, if_true]

theorem takeRequest_undecoded (h : requestLive s w.req = true) (hr : resetRefused w s = false) {st : Status}
    (hd : decodeRequest w.req.typ w.req.payload = .refused st) : takeRequest w s = replyTo w.req st .none s := by
  simp only [takeRequest, h, hr, hd, Bool.not_true, Bool.false_eq_true, if_false]

theorem takeRequest_notAdmin (h : requestLive s w.req = true) (hr : resetRefused w s = false) {a : Ask}
    (hd : decodeRequest w.req.typ w.req.payload = .ok a) (ha : roleRefused s w.req.port a = true) :
    takeRequest w s = replyTo w.req .notAdmin .none s := by
  simp only [takeRequest, h, hr, hd, ha, Bool.not_true, Bool.false_eq_true, if_false, if_true]

theorem takeRequest_checked (h : requestLive s w.req = true) (hr : resetRefused w s = false) {a : Ask}
    (hd : decodeRequest w.req.typ w.req.payload = .ok a) (ha : roleRefused s w.req.port a = false) :
    takeRequest w s = handOn { req := w.req, ask := a } s := by
  simp only [takeRequest, h, hr, hd, ha, Bool.not_true, Bool.false_eq_true, if_false]

end TakeRequest

theorem handOn_ready {x : Handed} {s : State} (h : requestLive s x.req = true) (hr : ownerReady s x.req.port x.ask = true) :
    handOn x s = carryOut x.req x.ask s := by
  simp only [handOn, takeByOwner, h, hr, if_true]

theorem handOn_waits {x : Handed} {s : State} (hr : ownerReady s x.req.port x.ask = false) :
    handOn x s = setHanded x.req.port (some x) s := by
  simp only [handOn, hr, Bool.false_eq_true, if_false]

/-- Everything the Session Manager can do with a request: drop it, refuse it, or hand it on checked (R150, R151). -/
theorem takeRequest_cases (w : Queued) (s : State) :
    takeRequest w s = s ∨ (∃ st : Status, takeRequest w s = replyTo w.req st .none s) ∨
      ∃ a : Ask, requestLive s w.req = true ∧ resetRefused w s = false ∧ decodeRequest w.req.typ w.req.payload = .ok a ∧
        roleRefused s w.req.port a = false ∧ takeRequest w s = handOn { req := w.req, ask := a } s := by
  cases hl : requestLive s w.req with
  | false => exact Or.inl (takeRequest_ended hl)
  | true =>
    cases hr : resetRefused w s with
    | true => exact Or.inr (Or.inl ⟨_, takeRequest_resetting hl hr⟩)
    | false =>
      cases hd : decodeRequest w.req.typ w.req.payload with
      | refused st => exact Or.inr (Or.inl ⟨_, takeRequest_undecoded hl hr hd⟩)
      | ok a =>
        cases ha : roleRefused s w.req.port a with
        | true => exact Or.inr (Or.inl ⟨_, takeRequest_notAdmin hl hr hd ha⟩)
        | false => exact Or.inr (Or.inr ⟨a, rfl, rfl, rfl, ha, takeRequest_checked hl hr hd ha⟩)

theorem ownerEvent_cases {s s' : State} (h : ownerEvent s = some s') :
    ∃ (p : Port) (x : Handed), s.mgr.handed.get p = some x ∧ ownerReady s p x.ask = true ∧ s' = takeByOwner x (setHanded p none s) := by
  obtain ⟨p, _, hp⟩ := List.exists_of_findSome?_eq_some h
  obtain ⟨x, hx, rfl⟩ := Option.map_eq_some_iff.mp hp
  obtain ⟨hx, hr⟩ := Option.filter_eq_some_iff.mp hx
  exact ⟨p, x, hx, hr, rfl⟩

theorem nextRequest_eq_some {s : State} {p : Port} {x : Queued × List Queued} (h : nextRequest s p = some x) :
    s.mgr.handed.get p = none ∧ s.mgr.inbox.get p = x.1 :: x.2 := by
  unfold nextRequest at h
  split at h
  · rename_i hh hi
    cases h
    exact ⟨hh, hi⟩
  · cases h

theorem managerEvent_cases {s s' : State} (h : managerEvent s = some s') :
    ∃ (p : Port) (w : Queued) (rest : List Queued), s.mgr.handed.get p = none ∧ s.mgr.inbox.get p = w :: rest ∧
      s' = takeRequest w (setInbox p rest s) := by
  obtain ⟨p, _, hp⟩ := List.exists_of_findSome?_eq_some h
  obtain ⟨x, hx, rfl⟩ := Option.map_eq_some_iff.mp hp
  obtain ⟨hh, hi⟩ := nextRequest_eq_some hx
  exact ⟨p, x.1, x.2, hh, hi, rfl⟩

/-- Everything that can follow without a command, but for the count of meetings. -/
theorem internal_cases {s s' : State} (h : internal s = some s') :
    ∃ (u : State) (n : Nat), s' = { u with races := n } ∧ (scannerEvent s = some u ∨ ownerEvent s = some u ∨ managerEvent s = some u) := by
  have hreq : ∀ {u : State}, requestEvent s = some u → ownerEvent s = some u ∨ managerEvent s = some u := by
    intro u hu
    rcases Option.or_eq_some_iff.mp hu with ho | ⟨_, hm⟩
    · exact Or.inl ho
    · exact Or.inr hm
  unfold internal at h
  cases ha : scannerEvent s with
  | none =>
    cases hb : requestEvent s with
    | none =>
      rw [ha, hb] at h
      cases h
    | some b =>
      rw [ha, hb] at h
      cases h
      exact ⟨s', s'.races, rfl, Or.inr (hreq hb)⟩
  | some a =>
    cases hb : requestEvent s with
    | none =>
      rw [ha, hb] at h
      cases h
      exact ⟨s', s'.races, rfl, Or.inl rfl⟩
    | some b =>
      rw [ha, hb] at h
      cases h
      cases Config.race s.races with
      | true => exact ⟨a, _, rfl, Or.inl rfl⟩
      | false => exact ⟨b, _, rfl, Or.inr (hreq hb)⟩

/-- A condition that everything that follows inside a step keeps. -/
structure KeptInside (P : State → Prop) : Prop where
  races : ∀ {s : State} (n : Nat), P s → P { s with races := n }
  choose : ∀ {s : State} {p : Port} {x : Link × Delivery}, P s → lineIdle p s = true →
    choice s.keys.transition s.scan.frameNumber (s.link.get p) (s.delivery.get p) = some x → P (setPort p x.1 x.2 s)
  produce : ∀ {s : State} (p : Port) (r : Reply), P s → P (produce p r s)
  scanner : ∀ {s s' : State}, P s → scannerEvent s = some s' → P s'
  unhand : ∀ {s : State} (p : Port), P s → P (setHanded p none s)
  owner : ∀ {s : State} {p : Port} {h : Handed}, P s → s.mgr.handed.get p = some h → ownerReady s p h.ask = true →
    requestLive s h.req = true → P (carryOut h.req h.ask (setHanded p none s))
  unqueue : ∀ {s : State} {p : Port} {w : Queued} {rest : List Queued}, P s → s.mgr.inbox.get p = w :: rest → P (setInbox p rest s)
  fresh : ∀ {s : State} {p : Port} {w : Queued} {rest : List Queued} {a : Ask}, P s → s.mgr.inbox.get p = w :: rest →
    requestLive s w.req = true → resetRefused w s = false → decodeRequest w.req.typ w.req.payload = .ok a →
    roleRefused s w.req.port a = false → ownerReady s w.req.port a = true → P (carryOut w.req a (setInbox p rest s))
  hand : ∀ {s : State} {r : Request} {a : Ask}, P s → decodeRequest r.typ r.payload = .ok a → ownerReady s r.port a = false →
    P (setHanded r.port (some { req := r, ask := a }) s)

namespace KeptInside

variable {P : State → Prop} (hP : KeptInside P) {s : State}
include hP

theorem chooseFrame {p : Port} {s' : State} (h : P s) (hi : lineIdle p s = true) (hc : chooseFrame p s = some s') : P s' := by
  obtain ⟨x, hx, rfl⟩ := Option.map_eq_some_iff.mp hc
  exact hP.choose h hi hx

theorem serve (p : Port) (h : P s) : P (serve p s) := by
  unfold Machine.serve
  split
  · rename_i hi
    cases hc : Machine.chooseFrame p s with
    | none => exact h
    | some s' => exact hP.chooseFrame h hi hc
  · exact h

theorem serveAll (h : P s) : P (serveAll s) := hP.serve .p2 (hP.serve .p1 (hP.serve .p0 h))

theorem raceChoice (p : Port) (h : P s) : P (raceChoice p s) := by
  unfold Machine.raceChoice
  split
  · rename_i hi
    split
    · rename_i s' hc
      split
      · exact hP.races _ (hP.chooseFrame h hi hc)
      · exact hP.races _ h
    · exact h
  · exact h

theorem replyTo (r : Request) (st : Status) (data : ReplyData) (h : P s) : P (replyTo r st data s) := hP.produce _ _ h

theorem ownerEvent {s' : State} (h : P s) (he : ownerEvent s = some s') : P s' := by
  obtain ⟨p, x, hx, hr, rfl⟩ := ownerEvent_cases he
  unfold takeByOwner
  split
  · rename_i hlive
    exact hP.owner h hx hr hlive
  · exact hP.unhand p h

theorem managerEvent {s' : State} (h : P s) (he : managerEvent s = some s') : P s' := by
  obtain ⟨p, w, rest, _, hi, rfl⟩ := managerEvent_cases he
  have hu := hP.unqueue h hi
  rcases takeRequest_cases w (setInbox p rest s) with e | ⟨st, e⟩ | ⟨a, hlive, hreset, hdec, hrole, e⟩
  · rw [e]
    exact hu
  · rw [e]
    exact hP.replyTo _ _ _ hu
  · rw [e]
    unfold handOn takeByOwner
    cases hready : ownerReady (setInbox p rest s) w.req.port a with
    | true =>
      simp only [if_true, hlive]
      exact hP.fresh h hi hlive hreset hdec hrole hready
    | false => exact hP.hand hu hdec hready

theorem internal {s' : State} (h : P s) (he : internal s = some s') : P s' := by
  obtain ⟨u, n, rfl, hu⟩ := internal_cases he
  apply hP.races
  rcases hu with hu | hu | hu
  · exact hP.scanner h hu
  · exact hP.ownerEvent h hu
  · exact hP.managerEvent h hu

theorem settle (n : Nat) (h : P s) : P (settle n s) := by
  induction n generalizing s with
  | zero => exact h
  | succ n ih =>
    unfold Machine.settle
    split
    · rename_i s' hs
      exact ih (hP.serveAll (hP.internal h hs))
    · exact h

theorem finish (h : P s) : P (finish s) := hP.settle _ (hP.serveAll h)

theorem finishRequest (p : Port) (h : P s) : P (finishRequest p s) := hP.serveAll (hP.settle _ (hP.raceChoice p h))

end KeptInside

/-- A condition that the taking of a good frame keeps. -/
structure KeptByFrame (P : State → Prop) : Prop extends KeptInside P where
  reset : ∀ {s : State}, P s → P (fullReset s)
  ackByte : ∀ {s : State} (p : Port) (a : Byte), P s → P (takeAckByte p a s)
  oweAck : ∀ {s : State} (p : Port), P s → P (updLink p Link.oweAck s)
  opening : ∀ {s : State} (p : Port) (seq : Byte) (payload : List Byte), P s →
    P (takeOpen p seq payload (updLink p (Link.acceptOpen seq) s))
  noSession : ∀ {s : State} (p : Port), P s → P (updLink p (fun l => { l with noSession := true }) s)
  accept : ∀ {s : State} (p : Port) (f : RxFrame), P s → isOpen s p = true → verdict s p f.seq = .accepted → P (acceptRequest p f s)

namespace KeptByFrame

variable {P : State → Prop} (hP : KeptByFrame P) {s : State}
include hP

theorem takeRequestFrame (p : Port) (f : RxFrame) (h : P s) : P (takeRequestFrame p f s) := by
  unfold Machine.takeRequestFrame
  split
  · exact hP.serve p (hP.noSession p h)
  · exact hP.serve p h
  · rename_i hst
    have ho : isOpen s p = true := by rw [isOpen, hst, beq_self_eq_true]
    cases hv : verdict s p f.seq with
    | accepted => exact hP.finishRequest p (hP.accept p f h ho hv)
    | noPlace => exact hP.serve p h
    | duplicate => exact hP.serve p (hP.oweAck p h)
    | outOfWindow => exact hP.serve p (hP.oweAck p h)

theorem takeGoodFrame (p : Port) (f : RxFrame) (h : P s) : P (takeGoodFrame p f s) := by
  unfold Machine.takeGoodFrame
  have h1 := hP.ackByte p f.ack h
  split
  · exact hP.reset h
  · simp only
    split
    · exact hP.serve p h1
    · split
      · unfold takeOpenFrame
        split
        · exact hP.finish (hP.oweAck p h1)
        · exact hP.finish (hP.opening p f.seq f.payload h1)
      · exact hP.takeRequestFrame p f h1

end KeptByFrame

/-- A condition that every event of the table keeps, but for what the framers take byte by byte. -/
structure KeptByEvent (P : State → Prop) : Prop extends KeptByFrame P where
  pending : ∀ {s : State} (is : List Instr), P s → P { s with pending := is }
  pins : ∀ {s : State} (x : Pins), P s → P { s with pins := x }
  snapshotRead : ∀ {s : State} (p : Port), P s → P (setSnapshot p none s)
  slotEnd : ∀ {s : State} {c : Column} (sense : BitVec 8), P s → s.scan.phase = .slot c → P (endSlot sense c s)
  completion : ∀ {s : State}, P s → s.scan.phase = .frameEnd → P (completeFrame s)
  watchSample : ∀ {s : State} (sense : BitVec 8), P s → s.scan.state = .watch → P (takeWatchSample sense s)
  litDemand : ∀ {s : State} {n : Nat}, P s → s.scan.litDemands = n + 1 →
    P (takeLitDemand { s with scan := { s.scan with litDemands := n } })
  routing : ∀ {s : State}, P s → P (routeNext s)
  lastRetry : ∀ {s : State} (p : Port), P s → P (retryLimitReached p (updLink p Link.giveUp s))
  retry : ∀ {s : State} (p : Port), P s → (s.link.get p).retransmit.running = true → (s.link.get p).retry + 1 < Config.retryLimit →
    P (serve p (updLink p (fun l => { l with retransmit := l.retransmit.stop, retry := l.retry + 1, burst := some 0 }) s))
  holdoff : ∀ {s : State} (p : Port), P s → P (updLink p (fun l => { l with holdoff := l.holdoff.stop }) s)
  frameEnd : ∀ {s : State} (p : Port), P s → lineIdle p s = false → P (serve p (updLink p Link.endFrame s))

/-- A condition that every event of the table keeps. -/
structure KeptByStep (P : State → Prop) : Prop extends KeptByEvent P where
  arrivingByte : ∀ {s : State} (p : Port) (x : RxByte), P s → P (takeArrivingByte p x s)
  badFrame : ∀ {s : State} (p : Port), P s → P (takeBadFrame p s)
  gapExpiry : ∀ {s : State} (p : Port), P s → P (takeGapExpiry p s)

section Framers

variable {P : State → Prop} (hP : KeptByFrame P) (hf : ∀ {s : State} (p : Port) (fr : Framer), P s → P (setFramer p fr s)) {s : State}
include hP hf

theorem KeptByFrame.feed (p : Port) (x : RxByte) (h : P s) : P (feed p x s) := by
  unfold Machine.feed
  simp only
  split
  · exact hP.takeGoodFrame p _ (hf p _ h)
  · exact hf p _ h

theorem KeptByFrame.drain (p : Port) (n : Nat) (h : P s) : P (drain p n s) := by
  induction n generalizing s with
  | zero => exact h
  | succ n ih =>
    unfold Machine.drain
    split
    · exact h
    · split
      · exact h
      · exact ih (hP.feed hf p _ (hf p _ h))

end Framers

/-- A condition that does not read the framers is kept by what they take. -/
theorem KeptByEvent.keptByStep {P : State → Prop} (hP : KeptByEvent P)
    (hf : ∀ {s : State} (p : Port) (fr : Framer), P s → P (setFramer p fr s)) : KeptByStep P where
  toKeptByEvent := hP
  arrivingByte p x h := by
    unfold takeArrivingByte
    split
    · exact hf p _ h
    · exact hP.toKeptByFrame.feed hf p x h
  badFrame p h := by
    unfold takeBadFrame
    simp only
    split
    · exact hP.toKeptByFrame.drain hf p _ (hf p _ h)
    · exact h
  gapExpiry p h := by
    unfold takeGapExpiry
    split
    · exact hf p _ h
    · exact h

namespace KeptByStep

variable {P : State → Prop} (hP : KeptByStep P) {s : State}
include hP

theorem exec {i : Instr} {t : State} (h : P s) (he : exec i s = .next t) : P t := by
  cases i with
  | openSession _ _ _ _ | close _ _ _ _ | grant _ _ _ _ | join _ _ _ _ | leave _ _ _ _ | snapshot _ _ _ _ | lamps _ _ _ _ | status _ _ _ _
  | mapKeys _ _ _ _ | mapLamps _ _ _ _ | groupSetup _ _ _ _ | dissolve _ _ _ _ | scanSetup _ _ _ _ | scanControlStart _ _ _ _
  | scanControlHalt _ _ _ _ | scanControlWatch _ _ _ _ | reset _ _ _ _ | ack _ _ _ _ | unknownTypeRequest _ _ _ _ _ =>
    rw [exec_of_frame rfl] at he
    cases he
    exact hP.takeGoodFrame _ _ h
  | nrst straps | powerUp straps =>
    cases he
    exact hP.reset (hP.pins _ h)
  | snapshotRead p =>
    cases he
    refine hP.finish ?_
    unfold takeSnapshotRead
    split
    · exact hP.replyTo _ _ _ (hP.snapshotRead p h)
    · exact h
  | badCrcFrame p =>
    cases he
    exact hP.badFrame p h
  | gapTimerExpiry p =>
    cases he
    exact hP.gapExpiry p h
  | scanFrameCompletion =>
    simp only [Machine.exec, execScanFrameCompletion] at he
    split at he <;> cases he
    · rename_i hph
      exact hP.finish (hP.completion h hph)
    all_goals exact h
  | watchSample sense =>
    simp only [Machine.exec, execWatchSample] at he
    split at he <;> cases he
    · rename_i hst
      exact hP.finish (hP.watchSample sense h hst)
    all_goals exact h
  | litDemand =>
    simp only [Machine.exec, execLitDemand] at he
    split at he <;> cases he
    · exact h
    · rename_i n hn
      exact hP.finish (hP.litDemand h hn)
  | routeTransition =>
    cases he
    exact hP.finish (hP.routing h)
  | retransmitTimerExpiry p =>
    cases he
    unfold takeRetransmitExpiry
    simp only
    split
    · rename_i hr
      split
      · exact hP.finish (hP.lastRetry p h)
      · rename_i hn
        exact hP.retry p h hr (Nat.lt_of_not_le hn)
    · exact h
  | ackHoldoffExpiry p =>
    cases he
    unfold takeHoldoffExpiry
    split
    · exact hP.serve p (hP.holdoff p h)
    · exact h
  | frameTransmitEnd p =>
    cases he
    unfold takeFrameEnd
    split
    · exact h
    · rename_i hb
      exact hP.frameEnd p h (Bool.eq_false_iff.mpr hb)
  | arrivingByte p b fault =>
    cases he
    exact hP.arrivingByte p _ h
  | columnSlotEnd sense =>
    simp only [Machine.exec, execColumnSlotEnd] at he
    split at he <;> cases he
    · rename_i hph
      exact hP.slotEnd sense h hph
    all_goals exact h

/-- What survives the parts of a step survives the step. -/
theorem step {t : State} (h : P s) (hs : step s = .next t) : P t := by
  unfold Machine.step at hs
  split at hs
  · cases hs
    exact h
  · exact hP.exec (hP.pending _ h) hs

end KeptByStep

end Sys2Proof.Machine

/-! ## What the blocks' own operations leave unchanged -/

namespace Sys2Proof.Machine

/-- What every step of a fold keeps, the fold keeps. -/
theorem foldl_keeps {α β : Type} {f : State → α → State} {g : State → β} (h : ∀ s a, g (f s a) = g s) (as : List α) (s : State) :
    g (as.foldl f s) = g s := by
  induction as generalizing s with
  | nil => rfl
  | cons a as ih => rw [List.foldl_cons, ih, h]

/-! ### Matrix Scanner -/

@[simp] theorem beginSlot_keeps (c : Column) (s : State) :
    (beginSlot c s).keys = s.keys ∧ (beginSlot c s).groups = s.groups ∧ (beginSlot c s).disp = s.disp ∧
      (beginSlot c s).delivery = s.delivery ∧ (beginSlot c s).lamps = s.lamps ∧ (beginSlot c s).link = s.link ∧ (beginSlot c s).mgr = s.mgr ∧
      (beginSlot c s).pins = s.pins ∧ (beginSlot c s).races = s.races ∧ (beginSlot c s).pending = s.pending :=
  ⟨rfl, rfl, rfl, rfl, rfl, rfl, rfl, rfl, rfl, rfl⟩

@[simp] theorem beginFrame_keeps (s : State) :
    (beginFrame s).keys = s.keys ∧ (beginFrame s).groups = s.groups ∧ (beginFrame s).disp = s.disp ∧ (beginFrame s).delivery = s.delivery ∧
      (beginFrame s).lamps = s.lamps ∧ (beginFrame s).link = s.link ∧ (beginFrame s).mgr = s.mgr ∧ (beginFrame s).pins = s.pins ∧
      (beginFrame s).races = s.races ∧ (beginFrame s).pending = s.pending :=
  ⟨rfl, rfl, rfl, rfl, rfl, rfl, rfl, rfl, rfl, rfl⟩

@[simp] theorem endSlot_keeps (sense : BitVec 8) (c : Column) (s : State) :
    (endSlot sense c s).keys = s.keys ∧ (endSlot sense c s).groups = s.groups ∧ (endSlot sense c s).disp = s.disp ∧
      (endSlot sense c s).delivery = s.delivery ∧ (endSlot sense c s).lamps = s.lamps ∧ (endSlot sense c s).link = s.link ∧
      (endSlot sense c s).mgr = s.mgr ∧ (endSlot sense c s).pins = s.pins ∧ (endSlot sense c s).races = s.races ∧
      (endSlot sense c s).pending = s.pending := by
  unfold endSlot
  split <;> exact ⟨rfl, rfl, rfl, rfl, rfl, rfl, rfl, rfl, rfl, rfl⟩

@[simp] theorem enterActive_keeps (s : State) :
    (enterActive s).keys = s.keys ∧ (enterActive s).groups = s.groups ∧ (enterActive s).disp = s.disp ∧ (enterActive s).lamps = s.lamps ∧
      (enterActive s).link = s.link ∧ (enterActive s).mgr = s.mgr ∧ (enterActive s).pins = s.pins ∧ (enterActive s).races = s.races ∧
      (enterActive s).pending = s.pending :=
  ⟨postScanState_keys _, postScanState_groups _, postScanState_disp _, postScanState_lamps _, postScanState_link _, postScanState_mgr _,
    postScanState_pins _, postScanState_races _, postScanState_pending _⟩

@[simp] theorem enterWatch_keeps (s : State) :
    (enterWatch s).keys = s.keys ∧ (enterWatch s).groups = s.groups ∧ (enterWatch s).disp = s.disp ∧ (enterWatch s).lamps = s.lamps ∧
      (enterWatch s).link = s.link ∧ (enterWatch s).mgr = s.mgr ∧ (enterWatch s).pins = s.pins ∧ (enterWatch s).races = s.races ∧
      (enterWatch s).pending = s.pending :=
  ⟨postScanState_keys _, postScanState_groups _, postScanState_disp _, postScanState_lamps _, postScanState_link _, postScanState_mgr _,
    postScanState_pins _, postScanState_races _, postScanState_pending _⟩

@[simp] theorem enterHalted_keeps (s : State) :
    (enterHalted s).keys = s.keys ∧ (enterHalted s).groups = s.groups ∧ (enterHalted s).disp = s.disp ∧ (enterHalted s).lamps = s.lamps ∧
      (enterHalted s).link = s.link ∧ (enterHalted s).mgr = s.mgr ∧ (enterHalted s).pins = s.pins ∧ (enterHalted s).races = s.races ∧
      (enterHalted s).pending = s.pending :=
  ⟨postScanState_keys _, postScanState_groups _, postScanState_disp _, postScanState_lamps _, postScanState_link _, postScanState_mgr _,
    postScanState_pins _, postScanState_races _, postScanState_pending _⟩

theorem enterActive_scan (s : State) :
    (enterActive s).scan = { s.scan with
      state := .active, idleCount := 0, watchTimer := s.scan.watchTimer.stop, phase := .slot 0, recorded := 0
      driveLines := if s.scan.setup.columnMask.getLsbD 0 then oneDriveLine 0 else 0
      lampLines := if s.scan.setup.columnMask.getLsbD 0 then columnLamps s (s.scan.frameNumber + 1) 0 else 0 } :=
  postScanState_scan _

theorem enterWatch_scan (s : State) :
    (enterWatch s).scan = { s.scan with
      state := .watch, phase := .idle, recorded := 0, driveLines := 0, lampLines := 0
      watchTimer := s.scan.watchTimer.start s.scan.setup.watchPeriod.ms } :=
  postScanState_scan _

theorem enterHalted_scan (s : State) :
    (enterHalted s).scan = { s.scan with
      state := .halted, phase := .idle, recorded := 0, driveLines := 0, lampLines := 0, watchTimer := s.scan.watchTimer.stop } :=
  postScanState_scan _

theorem beginFrame_scan (s : State) :
    (beginFrame s).scan = { s.scan with
      phase := .slot 0, recorded := 0
      driveLines := if s.scan.setup.columnMask.getLsbD 0 then oneDriveLine 0 else 0
      lampLines := if s.scan.setup.columnMask.getLsbD 0 then columnLamps s (s.scan.frameNumber + 1) 0 else 0 } := rfl

@[simp] theorem takeWatchSample_keeps (sense : BitVec 8) (s : State) :
    (takeWatchSample sense s).keys = s.keys ∧ (takeWatchSample sense s).groups = s.groups ∧ (takeWatchSample sense s).disp = s.disp ∧
      (takeWatchSample sense s).lamps = s.lamps ∧ (takeWatchSample sense s).link = s.link ∧ (takeWatchSample sense s).mgr = s.mgr ∧
      (takeWatchSample sense s).pins = s.pins ∧ (takeWatchSample sense s).races = s.races ∧
      (takeWatchSample sense s).pending = s.pending := by
  unfold takeWatchSample
  split
  · exact enterActive_keeps s
  · exact ⟨rfl, rfl, rfl, rfl, rfl, rfl, rfl, rfl, rfl⟩

@[simp] theorem takeLitDemand_keeps (s : State) :
    (takeLitDemand s).keys = s.keys ∧ (takeLitDemand s).groups = s.groups ∧ (takeLitDemand s).disp = s.disp ∧
      (takeLitDemand s).lamps = s.lamps ∧ (takeLitDemand s).link = s.link ∧ (takeLitDemand s).mgr = s.mgr ∧ (takeLitDemand s).pins = s.pins ∧
      (takeLitDemand s).races = s.races ∧ (takeLitDemand s).pending = s.pending := by
  unfold takeLitDemand
  split
  · exact enterActive_keeps s
  all_goals exact ⟨rfl, rfl, rfl, rfl, rfl, rfl, rfl, rfl, rfl⟩

/-! ### Key Table -/

@[simp] theorem emit_keeps (es : List Emission) (frame : Word16) (s : State) :
    (emit es frame s).scan = s.scan ∧ (emit es frame s).keys.recs = s.keys.recs ∧ (emit es frame s).groups = s.groups ∧
      (emit es frame s).disp.snapshots = s.disp.snapshots ∧ (emit es frame s).delivery = s.delivery ∧ (emit es frame s).lamps = s.lamps ∧
      (emit es frame s).link = s.link ∧ (emit es frame s).mgr = s.mgr ∧ (emit es frame s).pins = s.pins ∧
      (emit es frame s).races = s.races ∧ (emit es frame s).pending = s.pending :=
  ⟨rfl, rfl, rfl, rfl, rfl, rfl, rfl, rfl, rfl, rfl, rfl⟩

@[simp] theorem sweep_keeps (f : Key → KeyRec × Emitted) (s : State) :
    (sweep f s).scan = s.scan ∧ (sweep f s).groups = s.groups ∧ (sweep f s).disp.snapshots = s.disp.snapshots ∧
      (sweep f s).delivery = s.delivery ∧ (sweep f s).lamps = s.lamps ∧ (sweep f s).link = s.link ∧ (sweep f s).mgr = s.mgr ∧
      (sweep f s).pins = s.pins ∧ (sweep f s).races = s.races ∧ (sweep f s).pending = s.pending := by
  simp only [sweep, emit_keeps, and_self]

/-- A sweep gives every key the record that its function names. -/
theorem sweep_recs (f : Key → KeyRec × Emitted) (s : State) (k : Key) : (sweep f s).keys.recs[k] = (f k).1 := by
  simp only [sweep, emit_keeps, Fin.getElem_fin, Vector.getElem_ofFn]

@[simp] theorem takeImage_keeps (s : State) :
    (takeImage s).scan = s.scan ∧ (takeImage s).groups = s.groups ∧ (takeImage s).disp.snapshots = s.disp.snapshots ∧
      (takeImage s).delivery = s.delivery ∧ (takeImage s).lamps = s.lamps ∧ (takeImage s).link = s.link ∧ (takeImage s).mgr = s.mgr ∧
      (takeImage s).pins = s.pins ∧ (takeImage s).races = s.races ∧ (takeImage s).pending = s.pending :=
  sweep_keeps _ s

@[simp] theorem takeHalt_keeps (s : State) :
    (takeHalt s).scan = s.scan ∧ (takeHalt s).groups = s.groups ∧ (takeHalt s).disp.snapshots = s.disp.snapshots ∧
      (takeHalt s).delivery = s.delivery ∧ (takeHalt s).lamps = s.lamps ∧ (takeHalt s).link = s.link ∧ (takeHalt s).mgr = s.mgr ∧
      (takeHalt s).pins = s.pins ∧ (takeHalt s).races = s.races ∧ (takeHalt s).pending = s.pending :=
  sweep_keeps _ s

/-- The halt leaves every key UP (R42). -/
theorem takeHalt_recs (s : State) (k : Key) : (takeHalt s).keys.recs[k] = s.keys.recs[k].toUp := sweep_recs _ s k

@[simp] theorem remapKey_keeps (s : State) (e : Key × Option Group) :
    (remapKey s e).scan = s.scan ∧ (remapKey s e).groups = s.groups ∧ (remapKey s e).disp.snapshots = s.disp.snapshots ∧
      (remapKey s e).delivery = s.delivery ∧ (remapKey s e).lamps = s.lamps ∧ (remapKey s e).link = s.link ∧
      (remapKey s e).mgr = s.mgr ∧ (remapKey s e).pins = s.pins ∧ (remapKey s e).races = s.races ∧
      (remapKey s e).pending = s.pending := by
  unfold remapKey
  simp only
  split
  · exact ⟨rfl, rfl, rfl, rfl, rfl, rfl, rfl, rfl, rfl, rfl⟩
  · split <;> exact ⟨rfl, rfl, rfl, rfl, rfl, rfl, rfl, rfl, rfl, rfl⟩

@[simp] theorem foldl_remapKey_keeps (es : List (Key × Option Group)) (s : State) :
    (es.foldl remapKey s).scan = s.scan ∧ (es.foldl remapKey s).groups = s.groups ∧
      (es.foldl remapKey s).disp.snapshots = s.disp.snapshots ∧ (es.foldl remapKey s).delivery = s.delivery ∧
      (es.foldl remapKey s).lamps = s.lamps ∧ (es.foldl remapKey s).link = s.link ∧ (es.foldl remapKey s).mgr = s.mgr ∧
      (es.foldl remapKey s).pins = s.pins ∧ (es.foldl remapKey s).races = s.races ∧ (es.foldl remapKey s).pending = s.pending := by
  refine ⟨?_, ?_, ?_, ?_, ?_, ?_, ?_, ?_, ?_, ?_⟩
  · exact foldl_keeps (g := State.scan) (fun s e => (remapKey_keeps s e).1) es s
  · exact foldl_keeps (g := State.groups) (by simp) es s
  · exact foldl_keeps (g := fun s => s.disp.snapshots) (by simp) es s
  · exact foldl_keeps (g := State.delivery) (by simp) es s
  · exact foldl_keeps (g := State.lamps) (by simp) es s
  · exact foldl_keeps (g := State.link) (by simp) es s
  · exact foldl_keeps (g := State.mgr) (by simp) es s
  · exact foldl_keeps (g := State.pins) (by simp) es s
  · exact foldl_keeps (g := State.races) (by simp) es s
  · exact foldl_keeps (g := State.pending) (by simp) es s

/-! ### Lamp Controller -/

/-- A fold of lamp updates changes the lamps alone. -/
theorem foldl_setLamp_eq {α : Type} (f : State → α → State) (h : ∀ s a, f s a = { s with lamps := (f s a).lamps }) (es : List α) (s : State) :
    es.foldl f s = { s with lamps := (es.foldl f s).lamps } := by
  induction es generalizing s with
  | nil => rfl
  | cons e es ih =>
    rw [List.foldl_cons, ih, h s e]

theorem foldl_mapLamp_eq (es : List (Lamp × Option Group × Option Key)) (s : State) :
    es.foldl mapLamp s = { s with lamps := (es.foldl mapLamp s).lamps } :=
  foldl_setLamp_eq mapLamp (fun _ _ => rfl) es s

theorem foldl_switchLamp_eq (es : List (Lamp × SwitchMode)) (s : State) :
    es.foldl switchLamp s = { s with lamps := (es.foldl switchLamp s).lamps } :=
  foldl_setLamp_eq switchLamp (fun _ _ => rfl) es s

@[simp] theorem foldl_mapLamp_keeps (es : List (Lamp × Option Group × Option Key)) (s : State) :
    (es.foldl mapLamp s).scan = s.scan ∧ (es.foldl mapLamp s).keys = s.keys ∧ (es.foldl mapLamp s).groups = s.groups ∧
      (es.foldl mapLamp s).disp = s.disp ∧ (es.foldl mapLamp s).delivery = s.delivery ∧ (es.foldl mapLamp s).link = s.link ∧
      (es.foldl mapLamp s).mgr = s.mgr ∧ (es.foldl mapLamp s).pins = s.pins ∧ (es.foldl mapLamp s).races = s.races ∧
      (es.foldl mapLamp s).pending = s.pending := by
  rw [foldl_mapLamp_eq]
  exact ⟨rfl, rfl, rfl, rfl, rfl, rfl, rfl, rfl, rfl, rfl⟩

@[simp] theorem foldl_switchLamp_keeps (es : List (Lamp × SwitchMode)) (s : State) :
    (es.foldl switchLamp s).scan = s.scan ∧ (es.foldl switchLamp s).keys = s.keys ∧ (es.foldl switchLamp s).groups = s.groups ∧
      (es.foldl switchLamp s).disp = s.disp ∧ (es.foldl switchLamp s).delivery = s.delivery ∧ (es.foldl switchLamp s).link = s.link ∧
      (es.foldl switchLamp s).mgr = s.mgr ∧ (es.foldl switchLamp s).pins = s.pins ∧ (es.foldl switchLamp s).races = s.races ∧
      (es.foldl switchLamp s).pending = s.pending := by
  rw [foldl_switchLamp_eq]
  exact ⟨rfl, rfl, rfl, rfl, rfl, rfl, rfl, rfl, rfl, rfl⟩

/-! ### Group Table and Dispatcher -/

@[simp] theorem postDissolve_keeps (g : Group) (former : PerPort (Option Mode)) (s : State) (p : Port) :
    (postDissolve g former s p).scan = s.scan ∧ (postDissolve g former s p).keys = s.keys ∧ (postDissolve g former s p).groups = s.groups ∧
      (postDissolve g former s p).disp = s.disp ∧ (postDissolve g former s p).lamps = s.lamps ∧ (postDissolve g former s p).link = s.link ∧
      (postDissolve g former s p).mgr = s.mgr ∧ (postDissolve g former s p).pins = s.pins ∧ (postDissolve g former s p).races = s.races ∧
      (postDissolve g former s p).pending = s.pending := by
  unfold postDissolve
  split
  · simp
  · exact ⟨rfl, rfl, rfl, rfl, rfl, rfl, rfl, rfl, rfl, rfl⟩

/-- The post of a DISSOLVE reaches a former member whose session is OPEN, and no other port (R54, R64). -/
theorem postDissolve_delivery (g : Group) (former : PerPort (Option Mode)) (s : State) (p q : Port) :
    (postDissolve g former s p).delivery.get q =
      if q = p ∧ (former.get p).isSome = true ∧ isOpen s p = true then (s.delivery.get q).takeDissolve g else s.delivery.get q := by
  unfold postDissolve
  by_cases hq : q = p
  · subst hq
    cases (former.get q).isSome with
    | false => simp
    | true => simp [post_delivery_same]
  · simp only [hq, false_and, if_false]
    split
    · exact post_delivery_ne hq _ s
    · rfl

@[simp] theorem routeTo_keeps (t : Transition) (g : Group) (s : State) (p : Port) :
    (routeTo t g s p).scan = s.scan ∧ (routeTo t g s p).keys = s.keys ∧ (routeTo t g s p).groups = s.groups ∧
      (routeTo t g s p).disp = s.disp ∧ (routeTo t g s p).lamps = s.lamps ∧ (routeTo t g s p).link = s.link ∧
      (routeTo t g s p).mgr = s.mgr ∧ (routeTo t g s p).pins = s.pins ∧ (routeTo t g s p).races = s.races ∧
      (routeTo t g s p).pending = s.pending := by
  unfold routeTo
  split
  · simp
  · exact ⟨rfl, rfl, rfl, rfl, rfl, rfl, rfl, rfl, rfl, rfl⟩

@[simp] theorem route_keeps (t : Transition) (s : State) :
    (route t s).scan = s.scan ∧ (route t s).keys = s.keys ∧ (route t s).groups = s.groups ∧
      (route t s).disp = s.disp ∧ (route t s).lamps = s.lamps ∧ (route t s).link = s.link ∧
      (route t s).mgr = s.mgr ∧ (route t s).pins = s.pins ∧ (route t s).races = s.races ∧ (route t s).pending = s.pending := by
  unfold route
  split
  · simp
  · exact ⟨rfl, rfl, rfl, rfl, rfl, rfl, rfl, rfl, rfl, rfl⟩

@[simp] theorem armStep_keeps (p : Port) (g : Group) (s : State) :
    (armStep p g s).scan = s.scan ∧ (armStep p g s).keys = s.keys ∧ (armStep p g s).groups = s.groups ∧
      (armStep p g s).disp = s.disp ∧ (armStep p g s).lamps = s.lamps ∧ (armStep p g s).link = s.link ∧
      (armStep p g s).mgr = s.mgr ∧ (armStep p g s).pins = s.pins ∧ (armStep p g s).races = s.races ∧ (armStep p g s).pending = s.pending := by
  unfold armStep
  split
  · simp
  · exact ⟨rfl, rfl, rfl, rfl, rfl, rfl, rfl, rfl, rfl, rfl⟩

end Sys2Proof.Machine

/-! ## Conditions on the Link Units alone -/

namespace Sys2Proof.Machine

/-- What an owner's part of a request does to the Link Units: replies, choices at a meeting, and, at a CLOSE, the release of held places. -/
theorem carryOut_of_links {P : State → Prop} (hlink : ∀ {s t : State}, t.link = s.link → P s → P t)
    (hproduce : ∀ {s : State} (p : Port) (r : Reply), P s → P (produce p r s)) (hrace : ∀ {s : State} (p : Port), P s → P (raceChoice p s))
    (hrelease : ∀ {s : State} (p : Port), P s → P (updLink p Link.releaseHeld s)) (r : Request) (a : Ask) {s : State} (h : P s) :
    P (carryOut r a s) := by
  have hreply : ∀ {u : State} (st : Status) (data : ReplyData), P u → P (replyTo r st data u) := fun st data hu => hproduce _ _ hu
  have hsame : ∀ {u : State}, u.link = s.link → P u := fun e => hlink e h
  cases a with
  | close => exact hrelease _ (hlink (teardown_link _ _ _) (hreply _ _ h))
  | grant n => exact hreply _ _ (hrace _ (hsame rfl))
  | join g m =>
    simp only [carryOut, takeJoin]
    split
    · exact hreply _ _ h
    · exact hreply _ _ (hsame (post_link _ _ _))
  | leave g =>
    simp only [carryOut, takeLeave]
    split
    · exact hreply _ _ (hlink (by simp) h)
    · exact hreply _ _ h
  | snapshot g =>
    simp only [carryOut, takeSnapshot]
    split
    · exact hlink (by simp) h
    · exact hreply _ _ h
  | lamps es =>
    simp only [carryOut, takeLamps]
    split
    · exact hreply _ _ h
    · split
      · exact hlink (s := replyTo r .ok .none (es.foldl switchLamp s)) rfl (hreply _ _ (hlink (by simp) h))
      · exact hreply _ _ (hlink (by simp) h)
  | status => exact hreply _ _ h
  | mapKeys es => exact hreply _ _ (hlink (by simp) h)
  | mapLamps es => exact hreply _ _ (hlink (by simp) h)
  | groupSetup g delay interval => exact hreply _ _ (hsame rfl)
  | dissolve g =>
    simp only [carryOut, takeDissolve]
    refine hreply _ _ (hrace _ (hlink ?_ h))
    split <;> simp
  | scanSetup su =>
    simp only [carryOut, takeScanSetup]
    split
    · exact hreply _ _ (hsame rfl)
    · exact hreply _ _ h
  | scanControl op =>
    have hactive : P (scanReply r .ok (raceChoice r.port (enterActive s))) := hreply _ _ (hrace _ (hlink (by simp) h))
    have hhalted : P (scanReply r .ok (raceChoice r.port (enterHalted s))) := hreply _ _ (hrace _ (hlink (by simp) h))
    have hwatch : P (scanReply r .ok (raceChoice r.port (enterWatch s))) := hreply _ _ (hrace _ (hlink (by simp) h))
    cases op with
    | start =>
      simp only [carryOut, takeScanControl, takeScanStart]
      split
      · exact hreply _ _ h
      · split
        · exact hreply _ _ h
        · exact hactive
        · exact hactive
    | halt =>
      simp only [carryOut, takeScanControl, takeScanHalt]
      split
      · exact hreply _ _ h
      · split
        · exact hreply _ _ h
        · exact hhalted
        · exact hsame rfl
    | watch =>
      simp only [carryOut, takeScanControl, takeScanWatch]
      split
      · exact hreply _ _ h
      · split
        · exact hreply _ _ h
        · exact hreply _ _ h
        · split
          · exact hwatch
          · exact hreply _ _ h
  | reset => exact hlink (s := replyTo r .ok .none s) rfl (hreply _ _ h)

@[simp] theorem afterImage_link (s : State) : (afterImage s).link = s.link := by
  simp only [afterImage]
  split
  · rfl
  · split
    · exact (enterWatch_keeps _).2.2.2.2.1
    · rfl

/-- Everything the scanner's next stage can be: the image is taken, the halt is taken, or the HALT in flight ends. -/
theorem scannerEvent_cases {s s' : State} (h : scannerEvent s = some s') :
    s.disp.waiting = [] ∧
      ((s.scan.phase = .imageWaiting ∧ s' = afterImage (takeImage s)) ∨
        (s.scan.phase = .haltWaiting ∧ s' = { takeHalt s with scan := { s.scan with phase := .haltRouting } }) ∨
        (s.scan.phase = .haltRouting ∧ s' = endHalt s)) := by
  unfold scannerEvent at h
  split at h
  · rename_i hw
    refine ⟨List.isEmpty_iff.mp hw, ?_⟩
    split at h <;> cases h
    · rename_i hp
      exact Or.inl ⟨hp, rfl⟩
    · rename_i hp
      exact Or.inr (Or.inl ⟨hp, rfl⟩)
    · rename_i hp
      exact Or.inr (Or.inr ⟨hp, rfl⟩)
  · cases h

/-- What the end of a HALT in flight does to the Link Units: a choice at a meeting and the reply. -/
theorem endHalt_of_links {P : State → Prop} (hlink : ∀ {s t : State}, t.link = s.link → P s → P t)
    (hproduce : ∀ {s : State} (p : Port) (r : Reply), P s → P (produce p r s)) (hrace : ∀ {s : State} (p : Port), P s → P (raceChoice p s))
    {s : State} (h : P s) : P (endHalt s) := by
  have hhalted : P (enterHalted s) := hlink (by simp) h
  unfold endHalt
  simp only
  split
  · rename_i x _
    exact hproduce _ _ (hlink (s := raceChoice x.port (enterHalted s)) rfl (hrace _ hhalted))
  · exact hhalted

theorem scannerEvent_of_links {P : State → Prop} (hlink : ∀ {s t : State}, t.link = s.link → P s → P t)
    (hproduce : ∀ {s : State} (p : Port) (r : Reply), P s → P (produce p r s)) (hrace : ∀ {s : State} (p : Port), P s → P (raceChoice p s))
    {s s' : State} (h : P s) (he : scannerEvent s = some s') : P s' := by
  obtain ⟨_, ⟨_, rfl⟩ | ⟨_, rfl⟩ | ⟨_, rfl⟩⟩ := scannerEvent_cases he
  · exact hlink (by simp) h
  · exact hlink (s := s) (by simp) h
  · exact endHalt_of_links hlink hproduce hrace h

/-- A Link Unit once its transmitter has been served. -/
def Link.served (number frame : Word16) (l : Link) (d : Delivery) : Link :=
  if l.line.isIdle then ((choice number frame l d).getD (l, d)).1 else l

theorem serve_link (p : Port) (s : State) :
    (serve p s).link.get p = Link.served s.keys.transition s.scan.frameNumber (s.link.get p) (s.delivery.get p) := by
  have h := congrArg Prod.fst (serve_servedIn p s)
  simp only [serve_keys, serve_scan] at h
  rw [h, Link.served]
  split <;> rfl

/-- What holds of every port's Link Unit, with one port's replaced. -/
theorem forall_set_link {L : Port → Link → Prop} {p : Port} {l : Link} {x : PerPort Link} (h : ∀ q, L q (x.get q)) (hl : L p l) (q : Port) : L q ((x.set p l).get q) := by
  by_cases hq : q = p
  · subst hq
    rw [PerPort.get_set_same]
    exact hl
  · rw [PerPort.get_set_ne _ hq]
    exact h q

theorem forall_updLink {L : Port → Link → Prop} {s : State} {p : Port} {f : Link → Link} (h : ∀ q, L q (s.link.get q)) (hf : L p (f (s.link.get p))) (q : Port) :
    L q ((updLink p f s).link.get q) := forall_set_link h hf q

/-- What of the Link Units the taking of a good frame keeps. -/
structure LinkKeptByFrame (L : Port → Link → Prop) : Prop where
  reset : ∀ {p : Port} {l : Link}, L p l → L p Link.atReset
  choose : ∀ {p : Port} {l : Link} {d : Delivery} {n f : Word16} {x : Link × Delivery}, L p l → l.line.isIdle = true →
    choice n f l d = some x → L p x.1
  reply : ∀ {p : Port} {l : Link} (r : Reply), L p l → 0 < l.held → L p { l with held := l.held - 1, replies := l.replies ++ [r] }
  release : ∀ {p : Port} {l : Link}, L p l → L p l.releaseHeld
  readAck : ∀ {p : Port} {l : Link} (a : Byte), L p l → L p (l.readAck a)
  oweAck : ∀ {p : Port} {l : Link}, L p l → L p l.oweAck
  acceptOpen : ∀ {p : Port} {l : Link} (seq : Byte), L p l → L p (l.acceptOpen seq)
  refuseOpen : ∀ {p : Port} {l : Link} (st : Status), L p l → L p { l with held := l.held - 1, openRefused := some st }
  rto : ∀ {p : Port} {l : Link} {n : Nat}, L p l → 1 ≤ n → n ≤ 255 → L p { l with rto := n * 10 }
  noSession : ∀ {p : Port} {l : Link}, L p l → L p { l with noSession := true }
  accept : ∀ {p : Port} {l : Link} (seq : Byte), L p l → l.places < Config.replyPlaces → L p (l.accept seq)

theorem decodeOpen_rto {payload : List Byte} {o : OpenAsk} (h : decodeOpen payload = .ok o) : 1 ≤ o.rto ∧ o.rto ≤ 255 := by
  unfold decodeOpen at h
  split at h
  · rename_i r t hi lo
    split at h
    · split at h <;> cases h
      rename_i ht
      exact ⟨ht, Nat.le_of_lt_succ t.isLt⟩
    · cases h
  · cases h

theorem judge_accepted {last seq : Byte} {places : Nat} (h : judge last places seq = .accepted) :
    seq = last + 1 ∧ places < Config.replyPlaces := by
  unfold judge at h
  split at h
  · rename_i hs
    split at h
    · rename_i hp
      exact ⟨hs, hp⟩
    · cases h
  · split at h <;> cases h

namespace LinkKeptByFrame

variable {L : Port → Link → Prop} (hL : LinkKeptByFrame L) {s : State}
include hL

theorem produce (p : Port) (r : Reply) (h : ∀ q, L q (s.link.get q)) (q : Port) : L q ((produce p r s).link.get q) := by
  rcases produce_spec p r s with ⟨_, hheld, e⟩ | e <;> rw [e]
  · exact forall_set_link h (hL.reply r (h p) hheld) q
  · exact h q

theorem chooseFrame {p : Port} {s' : State} (h : ∀ q, L q (s.link.get q)) (hi : lineIdle p s = true) (hc : chooseFrame p s = some s')
    (q : Port) : L q (s'.link.get q) := by
  obtain ⟨x, hx, rfl⟩ := Option.map_eq_some_iff.mp hc
  exact forall_set_link h (hL.choose (h p) hi hx) q

theorem raceChoice (p : Port) (h : ∀ q, L q (s.link.get q)) (q : Port) : L q ((raceChoice p s).link.get q) := by
  unfold Machine.raceChoice
  split
  · rename_i hi
    split
    · rename_i s' hc
      split
      · exact hL.chooseFrame h hi hc q
      · exact h q
    · exact h q
  · exact h q

theorem carryOut (r : Request) (a : Ask) (h : ∀ q, L q (s.link.get q)) (q : Port) : L q ((carryOut r a s).link.get q) :=
  carryOut_of_links (P := fun s => ∀ q, L q (s.link.get q)) (fun e h q => by rw [e]; exact h q) (fun p r h => hL.produce p r h)
    (fun p h => hL.raceChoice p h) (fun p h => forall_updLink h (hL.release (h p))) r a h q

theorem takeOpen (p : Port) (seq : Byte) (payload : List Byte) (h : ∀ q, L q (s.link.get q)) (q : Port) :
    L q ((takeOpen p seq payload s).link.get q) := by
  have hend : ∀ q, L q ((endForOpen p s).link.get q) := by
    intro q
    have e : (endForOpen p s).link = s.link := by
      unfold endForOpen
      split <;> simp
    rw [e]
    exact h q
  have hrefuse : ∀ st : Status, ∀ q, L q ((Machine.refuseOpen p st (endForOpen p s)).link.get q) :=
    fun st => forall_updLink hend (hL.refuseOpen st (hend p))
  unfold Machine.takeOpen
  split
  · rw [fullReset_link, PerPort.get_all]
    exact hL.reset (h q)
  · simp only
    split
    · exact hrefuse _ q
    · split
      · exact hrefuse _ q
      · rename_i o ho
        split
        · exact hrefuse _ q
        · obtain ⟨hlo, hhi⟩ := decodeOpen_rto ho
          refine hL.produce p _ (forall_updLink ?_ ?_) q
          · exact hend
          · exact hL.rto (hend p) hlo hhi

theorem keptByFrame : KeptByFrame fun s => ∀ p, L p (s.link.get p) where
  races _ h := h
  choose h hi hc := forall_set_link h (hL.choose (h _) hi hc)
  produce p r h := hL.produce p r h
  scanner h he := scannerEvent_of_links (P := fun s => ∀ q, L q (s.link.get q)) (fun e h q => by rw [e]; exact h q)
    (fun p r h => hL.produce p r h) (fun p h => hL.raceChoice p h) h he
  unhand _ h := h
  owner h _ _ _ := hL.carryOut _ _ h
  unqueue h _ := h
  fresh h _ _ _ _ _ _ := hL.carryOut _ _ h
  hand h _ _ := h
  reset h p := by
    rw [fullReset_link, PerPort.get_all]
    exact hL.reset (h p)
  ackByte p a h := by
    unfold takeAckByte endClosing
    simp only
    split <;> exact forall_updLink h (hL.readAck a (h p))
  oweAck p h := forall_updLink h (hL.oweAck (h p))
  opening p seq payload h := hL.takeOpen p seq payload (forall_updLink h (hL.acceptOpen seq (h p)))
  noSession p h := forall_updLink h (hL.noSession (h p))
  accept p f h _ hv := forall_updLink h (hL.accept f.seq (h p) (judge_accepted hv).2)

end LinkKeptByFrame

theorem forall_serve_updLink {L : Port → Link → Prop} {s : State} {p : Port} {f : Link → Link} (h : ∀ q, L q (s.link.get q))
    (hf : ∀ n m d, L p (Link.served n m (f (s.link.get p)) d)) (q : Port) : L q ((serve p (updLink p f s)).link.get q) := by
  by_cases hq : q = p
  · subst hq
    rw [serve_link, updLink_get_same]
    exact hf _ _ _
  · rw [serve_link_ne hq, updLink_get_ne hq]
    exact h q

/-- What of the Link Units every event of the table keeps, but for what the framers take byte by byte. -/
structure LinkKeptByEvent (L : Port → Link → Prop) : Prop extends LinkKeptByFrame L where
  giveUp : ∀ {p : Port} {l : Link}, L p l → L p l.giveUp
  retry : ∀ {p : Port} {l : Link} (n f : Word16) (d : Delivery), L p l → l.retransmit.running = true → l.retry + 1 < Config.retryLimit →
    L p (Link.served n f { l with retransmit := l.retransmit.stop, retry := l.retry + 1, burst := some 0 } d)
  holdoff : ∀ {p : Port} {l : Link}, L p l → L p { l with holdoff := l.holdoff.stop }
  frameEnd : ∀ {p : Port} {l : Link} (n f : Word16) (d : Delivery), L p l → l.line.isIdle = false → L p (Link.served n f l.endFrame d)

namespace LinkKeptByEvent

variable {L : Port → Link → Prop} (hL : LinkKeptByEvent L) {s : State}
include hL

theorem keptByEvent : KeptByEvent fun s => ∀ p, L p (s.link.get p) where
  toKeptByFrame := hL.keptByFrame
  pending _ h := h
  pins _ h := h
  snapshotRead _ h := h
  slotEnd _ h _ p := by
    rw [(endSlot_keeps _ _ _).2.2.2.2.2.1]
    exact h p
  completion h _ := h
  watchSample _ h _ p := by
    rw [(takeWatchSample_keeps _ _).2.2.2.2.1]
    exact h p
  litDemand h _ p := by
    rw [(takeLitDemand_keeps _).2.2.2.2.1]
    exact h p
  routing {s} h p := by
    have e : (routeNext s).link = s.link := by
      unfold routeNext
      split <;> simp
    rw [e]
    exact h p
  lastRetry {s} p h q := by
    have h1 := forall_updLink h (hL.giveUp (h p))
    unfold retryLimitReached
    split
    · rw [fullReset_link, PerPort.get_all]
      exact hL.reset (h q)
    · split
      · exact h1 q
      · rw [teardown_link]
        exact h1 q
      · exact h1 q
  retry p h hr hn := forall_serve_updLink h fun n f d => hL.retry n f d (h p) hr hn
  holdoff p h := forall_updLink h (hL.holdoff (h p))
  frameEnd p h hb := forall_serve_updLink h fun n f d => hL.frameEnd n f d (h p) hb

theorem keptByStep (hf : ∀ {p : Port} {l : Link} (fr : Framer), L p l → L p { l with framer := fr }) :
    KeptByStep fun s => ∀ p, L p (s.link.get p) :=
  hL.keptByEvent.keptByStep fun p fr h => forall_updLink h (hf fr (h p))

end LinkKeptByEvent

end Sys2Proof.Machine

/-! ## Every step keeps the Link Units sound -/

namespace Sys2Proof.Machine

/-! ### The framer -/

/-- The framer sound but for the bytes waiting behind a frame to be taken again: what the taking of those bytes keeps (R113). -/
def Framer.soundCore (f : Framer) : Prop :=
  (f.state = .hunt → f.buffer = []) ∧ f.gapRunning = (f.state == .collect && !f.holdsBadFrame) ∧
    ∀ (len : Byte) (rest : List Byte), f.buffer = len :: rest → lenInRange len = true ∧ rest.length ≤ len.toNat + 2

theorem Framer.sound_iff (f : Framer) : f.sound ↔ f.soundCore ∧ (f.holdsBadFrame = false → f.backlog = []) := by
  unfold Framer.sound Framer.soundCore
  tauto

/-- A framer that hunts with an empty buffer is sound but for waiting bytes. -/
theorem Framer.soundCore_hunting (bl : List RxByte) : Framer.soundCore { state := .hunt, buffer := [], gapRunning := false, backlog := bl } :=
  ⟨fun _ => rfl, rfl, fun _ _ h => nomatch h⟩

theorem Framer.soundCore_collecting (bl : List RxByte) :
    Framer.soundCore { state := .collect, buffer := [], gapRunning := true, backlog := bl } :=
  ⟨(nomatch ·), rfl, fun _ _ h => nomatch h⟩

theorem Framer.soundCore_hunt (b : Byte) (f : Framer) : (f.hunt b).soundCore := by
  unfold Framer.hunt
  split
  · exact Framer.soundCore_collecting _
  · exact Framer.soundCore_hunting _

/-- A whole frame is in the buffer once LEN and LEN + 2 more bytes are. -/
theorem bufferFull_cons (len : Byte) (rest : List Byte) : bufferFull (len :: rest) = decide (len.toNat + 2 ≤ rest.length) := rfl

/-- With a sound buffer that is not full, one more byte leaves it within its frame. -/
theorem Framer.store_bound {f : Framer} (h : f.soundCore) (hc : f.state = .collect) (hb : f.holdsBadFrame = false) {b : Byte}
    (hlen : f.buffer = [] → lenInRange b = true) (len : Byte) (rest : List Byte) (e : f.buffer ++ [b] = len :: rest) :
    lenInRange len = true ∧ rest.length ≤ len.toNat + 2 := by
  cases hbuf : f.buffer with
  | nil =>
    rw [hbuf] at e
    cases e
    exact ⟨hlen hbuf, Nat.zero_le _⟩
  | cons x xs =>
    rw [hbuf, List.cons_append] at e
    cases e
    have hfull : bufferFull (len :: xs) = false := by
      rw [Framer.holdsBadFrame, hc, hbuf] at hb
      simpa using hb
    rw [bufferFull_cons, decide_eq_false_iff_not] at hfull
    rw [List.length_append, List.length_singleton]
    exact ⟨(h.2.2 _ _ hbuf).1, by omega⟩

theorem Framer.soundCore_store {f : Framer} (h : f.soundCore) (hc : f.state = .collect) (hb : f.holdsBadFrame = false) {b : Byte}
    (hlen : f.buffer = [] → lenInRange b = true) : (f.store b).1.soundCore := by
  have hbound := Framer.store_bound h hc hb hlen
  have hnot : ¬f.state = .hunt := by rw [hc]; decide
  unfold Framer.store
  simp only
  split
  · rename_i hfull
    split
    · exact Framer.soundCore_hunting _
    · exact ⟨fun e => absurd e hnot, by simp [Framer.holdsBadFrame, hfull, hc], hbound⟩
  · rename_i hfull
    exact ⟨fun e => absurd e hnot, by simp [Framer.holdsBadFrame, hfull, hc], hbound⟩

/-- A byte taken by a framer that holds no frame to be taken again leaves it sound but for waiting bytes (R112). -/
theorem Framer.soundCore_take {f : Framer} (h : f.soundCore) (hb : f.holdsBadFrame = false) (x : RxByte) : (f.take x).1.soundCore := by
  unfold Framer.take
  split
  · split
    · exact h
    · exact Framer.soundCore_hunt _ _
  · rename_i hc
    split
    · exact Framer.soundCore_hunting _
    · split
      · exact Framer.soundCore_hunt _ _
      · rename_i hl
        refine Framer.soundCore_store h hc hb fun hnil => ?_
        simpa [hnil] using hl

theorem Framer.take_backlog (f : Framer) (x : RxByte) : (f.take x).1.backlog = f.backlog := by
  have hhunt : ∀ b : Byte, (f.hunt b).backlog = f.backlog := by
    intro b
    unfold Framer.hunt
    split <;> rfl
  unfold Framer.take
  split
  · split
    · rfl
    · exact hhunt _
  · split
    · rfl
    · split
      · exact hhunt _
      · unfold Framer.store
        simp only
        split
        · split <;> rfl
        · rfl

/-- The taking of a good frame leaves every framer as it stands, but for a full reset. -/
theorem takeGoodFrame_framer (p : Port) (f : RxFrame) (s : State) (q : Port) :
    framerOf (takeGoodFrame p f s) q = framerOf s q ∨ framerOf (takeGoodFrame p f s) q = Framer.atReset := by
  have hL : LinkKeptByFrame fun q l => l.framer = framerOf s q ∨ l.framer = Framer.atReset :=
    { reset := fun _ => Or.inr rfl
      choose := fun h _ hc => by rw [(choice_spec hc).1.framer]; exact h
      reply := fun _ h _ => h
      release := fun h => h
      readAck := fun a h => by rw [(Link.readAck_keeps a _).2.2.1]; exact h
      oweAck := fun h => by rw [(Link.oweAck_keeps _).2.2.1]; exact h
      acceptOpen := fun _ h => by rw [Link.acceptOpen, (Link.oweAck_keeps _).2.2.1]; exact h
      refuseOpen := fun _ h => h
      rto := fun h _ _ => h
      noSession := fun h => h
      accept := fun seq h _ => by rw [(Link.accept_keeps seq _).2.2.1]; exact h }
  exact hL.keptByFrame.takeGoodFrame p f (fun _ => Or.inl rfl) q

/-- A byte at the framer leaves the port's framer as `Framer.take` says, or reset, and the others as they stand, or reset. -/
theorem feed_framer (p : Port) (x : RxByte) (s : State) (q : Port) :
    framerOf (feed p x s) q = (if q = p then ((framerOf s p).take x).1 else framerOf s q) ∨ framerOf (feed p x s) q = Framer.atReset := by
  have hset : ∀ fr, framerOf (setFramer p fr s) q = if q = p then fr else framerOf s q := by
    intro fr
    by_cases hq : q = p
    · subst hq
      rw [framerOf_setFramer, if_pos rfl]
    · rw [framerOf, setFramer_get_ne hq, if_neg hq]
      rfl
  unfold feed
  simp only
  split
  · rw [← hset]
    exact takeGoodFrame_framer p _ _ q
  · exact Or.inl (hset _)

theorem Framer.sound_atReset : Framer.atReset.sound := (Framer.sound_iff _).mpr ⟨Framer.soundCore_hunting [], fun _ => rfl⟩

/-- Every framer is sound, the one of this port but for waiting bytes, of which it has at most this many. -/
def FramersSoundBut (p : Port) (n : Nat) (s : State) : Prop :=
  (∀ q, q ≠ p → (framerOf s q).sound) ∧ (framerOf s p).soundCore ∧ (framerOf s p).backlog.length ≤ n

theorem forall_sound_of_but {p : Port} {s : State} (h : FramersSoundBut p 0 s) (q : Port) : (framerOf s q).sound := by
  obtain ⟨hne, hcore, hlen⟩ := h
  by_cases hq : q = p
  · subst hq
    exact (Framer.sound_iff _).mpr ⟨hcore, fun _ => List.eq_nil_of_length_eq_zero (Nat.le_zero.mp hlen)⟩
  · exact hne q hq

theorem framersSoundBut_feed {p : Port} {n : Nat} {s : State} (h : FramersSoundBut p n s) (hb : (framerOf s p).holdsBadFrame = false)
    (x : RxByte) : FramersSoundBut p n (feed p x s) := by
  obtain ⟨hne, hcore, hlen⟩ := h
  refine ⟨fun q hq => ?_, ?_⟩
  · rcases feed_framer p x s q with e | e <;> rw [e]
    · rw [if_neg hq]
      exact hne q hq
    · exact Framer.sound_atReset
  · rcases feed_framer p x s p with e | e <;> rw [e]
    · rw [if_pos rfl, Framer.take_backlog]
      exact ⟨Framer.soundCore_take hcore hb x, hlen⟩
    · exact ⟨Framer.soundCore_hunting [], Nat.zero_le _⟩

theorem framersSoundBut_setFramer {p : Port} {m n : Nat} {s : State} (h : FramersSoundBut p m s) {fr : Framer} (hc : fr.soundCore)
    (hn : fr.backlog.length ≤ n) : FramersSoundBut p n (setFramer p fr s) := by
  refine ⟨fun q hq => ?_, ?_⟩
  · rw [framerOf, setFramer_get_ne hq]
    exact h.1 q hq
  · rw [framerOf_setFramer]
    exact ⟨hc, hn⟩

/-- The bytes that wait are taken until none is left or a frame with a wrong CRC stands again: either way the framer is sound (R113). -/
theorem drain_framers {p : Port} {n : Nat} {s : State} (h : FramersSoundBut p n s) (q : Port) : (framerOf (drain p n s) q).sound := by
  induction n generalizing s with
  | zero => exact forall_sound_of_but h q
  | succ n ih =>
    unfold drain
    split
    · rename_i hb
      by_cases hq : q = p
      · subst hq
        exact (Framer.sound_iff _).mpr ⟨h.2.1, fun e => by rw [hb] at e; cases e⟩
      · exact h.1 q hq
    · rename_i hb
      split
      · rename_i hnil
        by_cases hq : q = p
        · subst hq
          exact (Framer.sound_iff _).mpr ⟨h.2.1, fun _ => hnil⟩
        · exact h.1 q hq
      · rename_i x rest hbl
        have hlen := h.2.2
        rw [hbl, List.length_cons] at hlen
        have hset : FramersSoundBut p n (setFramer p { framerOf s p with backlog := rest } s) :=
          framersSoundBut_setFramer h h.2.1 (by simpa using hlen)
        exact ih (framersSoundBut_feed hset (by rw [framerOf_setFramer]; exact Bool.eq_false_iff.mpr hb) x)

/-- What keeps every framer sound at the taking of a good frame. -/
theorem takeGoodFrame_framers {s : State} (h : ∀ q, (framerOf s q).sound) (p : Port) (f : RxFrame) (q : Port) :
    (framerOf (takeGoodFrame p f s) q).sound := by
  rcases takeGoodFrame_framer p f s q with e | e <;> rw [e]
  · exact h q
  · exact Framer.sound_atReset

theorem soundBut_of_forall {s : State} (h : ∀ q, (framerOf s q).sound) (p : Port) :
    FramersSoundBut p (framerOf s p).backlog.length s :=
  ⟨fun q _ => h q, ((Framer.sound_iff _).mp (h p)).1, le_rfl⟩

theorem framers_setFramer {s : State} (h : ∀ q, (framerOf s q).sound) {p : Port} {fr : Framer} (hf : fr.sound) (q : Port) :
    (framerOf (setFramer p fr s) q).sound := by
  by_cases hq : q = p
  · subst hq
    rw [framerOf_setFramer]
    exact hf
  · rw [framerOf, setFramer_get_ne hq]
    exact h q

end Sys2Proof.Machine

/-! ### What a frame carries fits (R110, R163 to R167) -/

namespace Sys2Proof.Machine

@[simp] theorem keySetBytes_length (s : KeySet) : (keySetBytes s).length = 16 := by
  simp only [keySetBytes, List.length_map, List.length_range]

@[simp] theorem groupSetBytes_length (s : GroupSet) : (groupSetBytes s).length = 4 := by
  simp only [groupSetBytes, List.length_map, List.length_range]

@[simp] theorem EventRec.bytes_length (r : EventRec) : r.bytes.length = 8 := by cases r <;> rfl

@[simp] theorem Config.partIdentity_length : Config.partIdentity.length = 8 := rfl

/-- How many bytes the data of a REPLY take (R163). -/
theorem ReplyData.bytes_length (x : ReplyData) :
    x.bytes.length =
      match x with
      | .none => 0
      | .identity => 8
      | .credits _ => 1
      | .removed _ => 1
      | .transition _ => 2
      | .snapshot _ _ _ _ _ _ => 53
      | .status _ _ _ _ _ _ _ _ _ => 11
      | .scan _ => 1 := by
  cases x <;> simp [ReplyData.bytes]

theorem flatMap_bytes_length (rs : List EventRec) : (rs.flatMap EventRec.bytes).length = 8 * rs.length := by
  simp only [List.length_flatMap, EventRec.bytes_length, List.map_const', List.sum_replicate, smul_eq_mul, Nat.mul_comm]

theorem Body.fits_reply (r : Reply) : (Body.reply r).fits := by
  have h := ReplyData.bytes_length r.data
  have hle : r.data.bytes.length ≤ 53 := by
    rw [h]
    split <;> decide
  show r.data.bytes.length + 1 + 1 + 1 ≤ 64
  omega

theorem Body.fits_report {rs : List EventRec} (h : rs.length ≤ 8) : (Body.report rs).fits := by
  show (rs.flatMap EventRec.bytes).length ≤ 64
  rw [flatMap_bytes_length]
  omega

theorem Body.fits_notice (changed dissolved : GroupSet) (scan : Option ScanState) : (Body.notice changed dissolved scan).fits := by
  simp [Body.fits, Body.payload, maxPayload, Config.lenMax, Config.lenMin]

theorem Body.fits_ack : Body.ack.fits := Nat.zero_le _
theorem Body.fits_noSession : Body.noSession.fits := Nat.zero_le _
theorem Body.fits_openRefused (st : Status) : (Body.openRefused st).fits := by
  show 1 ≤ 64
  decide

theorem Delivery.reportSize_le (d : Delivery) : d.reportSize ≤ 8 := Nat.min_le_left _ _

/-! ### The ranks of a choice (R132) -/

section Choice

variable {n f : Word16} {l : Link} {d : Delivery}

theorem rank1_burst {i : Nat} {fr : SentFrame} (h : l.burst = some i) (hf : l.resend[i]? = some fr) :
    rank1 l = some (Link.send fr.seq fr.body { l with burst := some (i + 1) }) := by
  simp only [rank1, h, hf]

theorem rank1_none (h : l.burst = none) : rank1 l = none := by
  simp only [rank1, h]

theorem rank2_some {st : Status} (h : l.openRefused = some st) :
    rank2 l = some (Link.send 0 (.openRefused st) { l with openRefused := none }) := by
  simp only [rank2, h]

theorem rank2_none (h : l.openRefused = none) : rank2 l = none := by
  simp only [rank2, h]

theorem rank3_some (h : l.noSession = true) : rank3 l = some (Link.send 0 .noSession { l with noSession := false }) := if_pos h

theorem rank3_none (h : l.noSession = false) : rank3 l = none := if_neg (Bool.eq_false_iff.mp h)

theorem choice_of_rank1 {l' : Link} (h : rank1 l = some l') : choice n f l d = some (l', d) := by
  simp only [choice, h]

theorem choice_burst {i : Nat} {fr : SentFrame} (h : l.burst = some i) (hf : l.resend[i]? = some fr) :
    choice n f l d = some (Link.send fr.seq fr.body { l with burst := some (i + 1) }, d) :=
  choice_of_rank1 (rank1_burst h hf)

theorem choice_of_rank2 {l' : Link} (h1 : rank1 l = none) (h : rank2 l = some l') : choice n f l d = some (l', d) := by
  simp only [choice, h1, h]

theorem choice_of_rank3 {l' : Link} (h1 : rank1 l = none) (h2 : rank2 l = none) (h : rank3 l = some l') :
    choice n f l d = some (l', d) := by
  simp only [choice, h1, h2, h]

theorem choice_of_rank4 {x : Link × Delivery} (h1 : rank1 l = none) (h2 : rank2 l = none) (h3 : rank3 l = none)
    (h : rank4 n f l d = some x) : choice n f l d = some x := by
  simp only [choice, h1, h2, h3, h]

theorem choice_of_rank5 (h1 : rank1 l = none) (h2 : rank2 l = none) (h3 : rank3 l = none) (h4 : rank4 n f l d = none) :
    choice n f l d = (rank5 l).map fun l' => (l', d) := by
  simp only [choice, h1, h2, h3, h4]

theorem newFrame?_eq_reply {run : Nat} {reply notice report : Bool} (h : newFrame? run reply notice report = some .reply) : reply = true := by
  unfold newFrame? at h
  cases reply with
  | true => rfl
  | false => split at h <;> cases notice <;> cases report <;> cases h

/-- The three frames rank 4 can give (R135, R136). -/
theorem rank4_cases {x : Link × Delivery} (h : rank4 n f l d = some x) :
    l.burst = none ∧ l.resend.length < Config.resendCapacity ∧
      ((∃ (r : Reply) (rest : List Reply), newFrame? l.replyRun (!l.replies.isEmpty) d.noticeEligible d.reportEligible = some .reply ∧
          l.replies = r :: rest ∧
          x = (Link.sendNew (.reply r)
            { l with replies := rest, replyRun := newRun l.replyRun .reply d.noticeEligible d.reportEligible }, d)) ∨
        (newFrame? l.replyRun (!l.replies.isEmpty) d.noticeEligible d.reportEligible = some .notice ∧
          x = (Link.sendNew (.notice d.changed d.dissolved d.scanEntry) { l with replyRun := 0 }, d.afterNotice)) ∨
        (newFrame? l.replyRun (!l.replies.isEmpty) d.noticeEligible d.reportEligible = some .report ∧
          x = (Link.sendNew (.report (d.queue.take d.reportSize)) { l with replyRun := 0 }, d.afterReport n f))) := by
  unfold rank4 at h
  split at h
  · rename_i hcond
    rw [Bool.and_eq_true, Option.isNone_iff_eq_none, decide_eq_true_eq] at hcond
    refine ⟨hcond.1, hcond.2, ?_⟩
    split at h
    · rename_i hn
      split at h <;> cases h
      rename_i r rest hr
      exact Or.inl ⟨r, rest, hn, hr, rfl⟩
    · rename_i hn
      cases h
      exact Or.inr (Or.inl ⟨hn, rfl⟩)
    · rename_i hn
      cases h
      exact Or.inr (Or.inr ⟨hn, rfl⟩)
    · cases h
  · cases h

/-- Every frame a choice can give, by its rank (R132 to R137). -/
theorem choice_cases {x : Link × Delivery} (h : choice n f l d = some x) :
    (∃ (i : Nat) (fr : SentFrame), l.burst = some i ∧ l.resend[i]? = some fr ∧
        x = (Link.send fr.seq fr.body { l with burst := some (i + 1) }, d)) ∨
      (∃ st : Status, l.openRefused = some st ∧ x = (Link.send 0 (.openRefused st) { l with openRefused := none }, d)) ∨
      (l.noSession = true ∧ x = (Link.send 0 .noSession { l with noSession := false }, d)) ∨
      (l.burst = none ∧ l.resend.length < Config.resendCapacity ∧
        ((∃ (r : Reply) (rest : List Reply), newFrame? l.replyRun (!l.replies.isEmpty) d.noticeEligible d.reportEligible = some .reply ∧
            l.replies = r :: rest ∧
            x = (Link.sendNew (.reply r)
              { l with replies := rest, replyRun := newRun l.replyRun .reply d.noticeEligible d.reportEligible }, d)) ∨
          (newFrame? l.replyRun (!l.replies.isEmpty) d.noticeEligible d.reportEligible = some .notice ∧
            x = (Link.sendNew (.notice d.changed d.dissolved d.scanEntry) { l with replyRun := 0 }, d.afterNotice)) ∨
          (newFrame? l.replyRun (!l.replies.isEmpty) d.noticeEligible d.reportEligible = some .report ∧
            x = (Link.sendNew (.report (d.queue.take d.reportSize)) { l with replyRun := 0 }, d.afterReport n f)))) ∨
      (l.ackDue = true ∧ x = (Link.send 0 .ack l, d)) := by
  unfold choice at h
  split at h
  · rename_i l' h1
    cases h
    unfold rank1 at h1
    split at h1
    · rename_i i hi
      split at h1 <;> cases h1
      rename_i fr hfr
      exact Or.inl ⟨i, fr, hi, hfr, rfl⟩
    · cases h1
  · split at h
    · rename_i l' h2
      cases h
      unfold rank2 at h2
      split at h2 <;> cases h2
      rename_i st hst
      exact Or.inr (Or.inl ⟨st, hst, rfl⟩)
    · split at h
      · rename_i l' h3
        cases h
        unfold rank3 at h3
        split at h3 <;> cases h3
        rename_i hn
        exact Or.inr (Or.inr (Or.inl ⟨hn, rfl⟩))
      · split at h
        · rename_i y h4
          cases h
          exact Or.inr (Or.inr (Or.inr (Or.inl (rank4_cases h4))))
        · obtain ⟨l', h5, rfl⟩ := Option.map_eq_some_iff.mp h
          unfold rank5 at h5
          split at h5 <;> cases h5
          rename_i ha
          exact Or.inr (Or.inr (Or.inr (Or.inr ⟨ha, rfl⟩)))

end Choice

/-! ### What an ACK byte does (R115, R125) -/

/-- An ACK byte that names no frame of the resend list changes nothing. -/
theorem Link.readAck_unknown {a : Byte} {l : Link} (h : ackedCount l.resend a = 0) : l.readAck a = l := by
  simp only [Link.readAck, h, if_true]

/-- An ACK byte that names the last frame empties the resend list. -/
theorem Link.readAck_last {a : Byte} {l : Link} (h : ackedCount l.resend a ≠ 0) (hr : l.resend.drop (ackedCount l.resend a) = []) :
    l.readAck a = { l with resend := [], retry := 0, burst := none, retransmit := l.retransmit.stop } := by
  simp only [Link.readAck, h, hr, if_false, List.isEmpty_nil, if_true]

/-- An ACK byte that names an earlier frame leaves those behind it: a burst goes on with them; without one the retransmit timer restarts. -/
theorem Link.readAck_more {a : Byte} {l : Link} (h : ackedCount l.resend a ≠ 0) (hr : l.resend.drop (ackedCount l.resend a) ≠ []) :
    l.readAck a =
      { l with
        resend := l.resend.drop (ackedCount l.resend a), retry := 0, burst := l.burst.map (· - ackedCount l.resend a)
        retransmit := if l.burst.isNone then l.retransmit.start l.rto else l.retransmit } := by
  simp only [Link.readAck, h, if_false, List.isEmpty_iff, hr]

/-! ### The transmitter's records (R121 to R125, R127, R138) -/

/-- A Link Unit sound but for its framer and for where its burst stands: what a frame being chosen or ended passes through. -/
structure Link.SoundBase (l : Link) : Prop where
  seqs : ∀ (i : Nat) (h : i < l.resend.length), l.resend[i].seq = l.nextSeq - BitVec.ofNat 8 (l.resend.length - i)
  timer : l.retransmit.running = true ↔ l.resend ≠ [] ∧ l.burst = none
  holdoff : l.holdoff.running = true → l.ackOwed = true
  resendFits : ∀ f ∈ l.resend, f.body.fits
  lineFits : ∀ (f : TxFrame) (n : Nat), l.line = .sending f n → f.body.fits ∧ n = f.size

/-- A Link Unit sound but for its framer. -/
structure Link.SoundCore (l : Link) : Prop extends l.SoundBase where
  bursting : ∀ i : Nat, l.burst = some i → l.resend ≠ [] ∧ i ≤ l.resend.length ∧ l.line.isIdle = false

/-- A Link Unit that may choose: sound, and a burst in progress has a frame left. -/
structure Link.SoundFree (l : Link) : Prop extends l.SoundBase where
  burstLeft : ∀ i : Nat, l.burst = some i → i < l.resend.length

theorem Link.sound_iff (l : Link) : l.sound ↔ l.SoundCore ∧ l.framer.sound :=
  ⟨fun ⟨a, b, c, d, e, f, g⟩ => ⟨⟨⟨a, b, d, e, f⟩, c⟩, g⟩, fun ⟨⟨⟨a, b, d, e, f⟩, c⟩, g⟩ => ⟨a, b, c, d, e, f, g⟩⟩

namespace Link

variable {l : Link}

theorem SoundCore.free (h : l.SoundCore) (hi : l.line.isIdle = true) : l.SoundFree where
  toSoundBase := h.toSoundBase
  burstLeft i e := by
    have hb := (h.bursting i e).2.2
    rw [hi] at hb
    cases hb

/-- A frame chosen leaves the Link Unit sound, if its contents fit and the burst stands within the resend list. -/
theorem SoundBase.send (h : l.SoundBase) (hb : ∀ i, l.burst = some i → l.resend ≠ [] ∧ i ≤ l.resend.length) (seq : Byte) {body : Body}
    (hf : body.fits) : (l.send seq body).SoundCore where
  seqs := h.seqs
  timer := h.timer
  holdoff e := nomatch e
  resendFits := h.resendFits
  lineFits f n e := by
    cases e
    exact ⟨hf, rfl⟩
  bursting i e := ⟨(hb i e).1, (hb i e).2, rfl⟩

theorem SoundFree.within (h : l.SoundFree) (i : Nat) (e : l.burst = some i) : l.resend ≠ [] ∧ i ≤ l.resend.length :=
  ⟨List.ne_nil_of_length_pos (Nat.zero_lt_of_lt (h.burstLeft i e)), (h.burstLeft i e).le⟩

/-- The numbers of the resend list with a new frame behind it (R121). -/
theorem SoundBase.seqs_append (h : l.SoundBase) (body : Body) (i : Nat) (hi : i < (l.resend ++ [SentFrame.mk l.nextSeq body]).length) :
    (l.resend ++ [SentFrame.mk l.nextSeq body])[i].seq = l.nextSeq + 1 - BitVec.ofNat 8 ((l.resend ++ [SentFrame.mk l.nextSeq body]).length - i) := by
  have hlen : (l.resend ++ [SentFrame.mk l.nextSeq body]).length = l.resend.length + 1 := by simp
  rw [hlen] at hi ⊢
  rcases Nat.lt_or_eq_of_le (Nat.le_of_lt_succ hi) with hlt | heq
  · rw [List.getElem_append_left hlt, h.seqs i hlt]
    have e : l.resend.length + 1 - i = (l.resend.length - i) + 1 := by omega
    rw [e, BitVec.ofNat_add]
    bv_omega
  · subst heq
    rw [List.getElem_append_right le_rfl, Nat.add_sub_cancel_left]
    simp

theorem SoundBase.sendNew (h : l.SoundBase) (hb : l.burst = none) {body : Body} (hf : body.fits) : (l.sendNew body).SoundCore := by
  have hbase : SoundBase { l with
      nextSeq := l.nextSeq + 1
      resend := l.resend ++ [{ seq := l.nextSeq, body }]
      retransmit := if l.resend.isEmpty then l.retransmit.start l.rto else l.retransmit } :=
    { seqs := h.seqs_append body
      timer := by
        cases hr : l.resend with
        | nil => simp [hb]
        | cons x xs =>
          have ht := h.timer
          rw [hr] at ht
          simpa [hb] using ht
      holdoff := h.holdoff
      resendFits := by
        intro f hmem
        rcases List.mem_append.mp hmem with hm | hm
        · exact h.resendFits f hm
        · rw [List.mem_singleton] at hm
          rw [hm]
          exact hf
      lineFits := h.lineFits }
  exact hbase.send (fun i e => by rw [hb] at e; cases e) _ hf

/-- Everything that a choice gives leaves the Link Unit sound. -/
theorem SoundFree.choice (h : l.SoundFree) {n f : Word16} {d : Delivery} {x : Link × Delivery} (hc : choice n f l d = some x) :
    x.1.SoundCore := by
  have hb := h.within
  have same : ∀ {l' : Link}, l'.resend = l.resend → l'.nextSeq = l.nextSeq → l'.retransmit = l.retransmit → l'.burst = l.burst →
      l'.holdoff = l.holdoff → l'.ackOwed = l.ackOwed → l'.line = l.line → l'.SoundBase := by
    rintro ⟨⟩ rfl rfl rfl rfl rfl rfl rfl
    exact ⟨h.seqs, h.timer, h.holdoff, h.resendFits, h.lineFits⟩
  obtain ⟨i, fr, hi, hfr, rfl⟩ | ⟨st, _, rfl⟩ | ⟨_, rfl⟩ | ⟨hnone, _, hnew⟩ | ⟨_, rfl⟩ := choice_cases hc
  · have hbase : SoundBase { l with burst := some (i + 1) } :=
      ⟨h.seqs, by have ht := h.timer; rw [hi] at ht; simpa using ht, h.holdoff, h.resendFits, h.lineFits⟩
    refine hbase.send (fun j e => ?_) _ (h.resendFits _ (List.mem_of_getElem? hfr))
    cases e
    exact ⟨(hb i hi).1, h.burstLeft i hi⟩
  · exact (same (l' := { l with openRefused := none }) rfl rfl rfl rfl rfl rfl rfl).send hb _ (Body.fits_openRefused _)
  · exact (same (l' := { l with noSession := false }) rfl rfl rfl rfl rfl rfl rfl).send hb _ Body.fits_noSession
  · obtain ⟨r, rest, _, _, rfl⟩ | ⟨_, rfl⟩ | ⟨_, rfl⟩ := hnew
    · exact (same (l' := { l with replies := rest, replyRun := newRun l.replyRun .reply d.noticeEligible d.reportEligible })
        rfl rfl rfl rfl rfl rfl rfl).sendNew hnone (Body.fits_reply _)
    · exact (same (l' := { l with replyRun := 0 }) rfl rfl rfl rfl rfl rfl rfl).sendNew hnone (Body.fits_notice _ _ _)
    · exact (same (l' := { l with replyRun := 0 }) rfl rfl rfl rfl rfl rfl rfl).sendNew hnone
        (Body.fits_report ((List.length_take_le _ _).trans d.reportSize_le))
  · exact h.toSoundBase.send hb _ Body.fits_ack

/-- With nothing to choose no burst is in progress. -/
theorem SoundFree.quiet (h : l.SoundFree) {n f : Word16} {d : Delivery} (hc : Machine.choice n f l d = none) : l.SoundCore where
  toSoundBase := h.toSoundBase
  bursting i e := by
    have hlt := h.burstLeft i e
    rw [choice_burst e (List.getElem?_eq_getElem hlt)] at hc
    cases hc

theorem served_busy (hi : l.line.isIdle = false) (n f : Word16) (d : Delivery) : l.served n f d = l := by
  simp only [Link.served, hi, Bool.false_eq_true, if_false]

theorem SoundFree.served (h : l.SoundFree) (hi : l.line.isIdle = true) (n f : Word16) (d : Delivery) : (l.served n f d).SoundCore := by
  unfold Link.served
  rw [if_pos hi]
  cases hc : Machine.choice n f l d with
  | none => exact h.quiet hc
  | some x => exact h.choice hc

/-- A Link Unit whose resend list is empty and that has no burst and a stopped retransmit timer. -/
theorem SoundCore.emptied (h : l.SoundCore) {l' : Link} (hr : l'.resend = []) (ht : l'.retransmit.running = false) (hb : l'.burst = none)
    (ha : l'.holdoff.running = true → l'.ackOwed = true) (hl : l'.line = l.line) : l'.SoundCore where
  seqs i hi := by
    rw [hr] at hi
    cases hi
  timer := by simp [hr, ht]
  holdoff := ha
  resendFits f hf := by
    rw [hr] at hf
    cases hf
  lineFits := by
    rw [hl]
    exact h.lineFits
  bursting i e := by
    rw [hb] at e
    cases e

theorem SoundCore.readAck (h : l.SoundCore) (a : Byte) : (l.readAck a).SoundCore := by
  by_cases hn : ackedCount l.resend a = 0
  · rw [readAck_unknown hn]
    exact h
  by_cases hr : l.resend.drop (ackedCount l.resend a) = []
  · rw [readAck_last hn hr]
    exact h.emptied rfl rfl rfl h.holdoff rfl
  rw [readAck_more hn hr]
  set n := ackedCount l.resend a
  have hlen : (l.resend.drop n).length = l.resend.length - n := List.length_drop
  refine ⟨⟨fun i hi => ?_, ?_, h.holdoff, fun f hf => h.resendFits f (List.mem_of_mem_drop hf), h.lineFits⟩, fun i e => ?_⟩
  · have hi' : n + i < l.resend.length := by
      have : i < (l.resend.drop n).length := hi
      omega
    simp only [List.getElem_drop, h.seqs (n + i) hi', hlen, Nat.sub_sub]
  · have hne : l.resend ≠ [] := fun e => hr (by rw [e, List.drop_nil])
    have ht := h.timer
    cases hb : l.burst with
    | none => simp [hr]
    | some i =>
      rw [hb] at ht
      simpa using ht
  · obtain ⟨j, hj, rfl⟩ := Option.map_eq_some_iff.mp e
    obtain ⟨_, hle, hbusy⟩ := h.bursting j hj
    exact ⟨hr, (Nat.sub_le_sub_right hle n).trans_eq hlen.symm, hbusy⟩

theorem SoundCore.oweAck (h : l.SoundCore) : l.oweAck.SoundCore := by
  unfold Link.oweAck
  split
  · exact h
  · exact ⟨⟨h.seqs, h.timer, fun _ => rfl, h.resendFits, h.lineFits⟩, h.bursting⟩

theorem SoundCore.endFrame (h : l.SoundCore) : l.endFrame.SoundFree := by
  unfold Link.endFrame
  split
  · rename_i i hi
    have hne := (h.bursting i hi).1
    split
    · exact ⟨⟨h.seqs, by simp [hne], h.holdoff, h.resendFits, fun _ _ e => (nomatch e)⟩, fun _ e => (nomatch e)⟩
    · rename_i hlt
      refine ⟨⟨h.seqs, h.timer, h.holdoff, h.resendFits, fun _ _ e => (nomatch e)⟩, fun j e => ?_⟩
      have hij : i = j := Option.some.inj (hi.symm.trans e)
      exact hij ▸ Nat.lt_of_not_le hlt
  · rename_i hn
    exact ⟨⟨h.seqs, h.timer, h.holdoff, h.resendFits, fun _ _ e => (nomatch e)⟩, fun j e => by rw [hn] at e; cases e⟩

theorem endFrame_idle (l : Link) : l.endFrame.line.isIdle = true := by
  unfold Link.endFrame
  split
  · split <;> rfl
  · rfl

theorem SoundCore.retry (h : l.SoundCore) (hrun : l.retransmit.running = true) (n f : Word16) (d : Delivery) :
    (Link.served n f { l with retransmit := l.retransmit.stop, retry := l.retry + 1, burst := some 0 } d).SoundCore := by
  have hne := (h.timer.mp hrun).1
  have hbase : SoundBase { l with retransmit := l.retransmit.stop, retry := l.retry + 1, burst := some 0 } :=
    ⟨h.seqs, by simp, h.holdoff, h.resendFits, h.lineFits⟩
  cases hi : l.line.isIdle with
  | true =>
    refine SoundFree.served ⟨hbase, fun i e => ?_⟩ hi n f d
    cases e
    exact List.length_pos_of_ne_nil hne
  | false =>
    rw [served_busy (l := { l with retransmit := l.retransmit.stop, retry := l.retry + 1, burst := some 0 }) hi]
    refine ⟨hbase, fun i e => ?_⟩
    cases e
    exact ⟨hne, Nat.zero_le _, hi⟩

end Link

theorem Link.soundCore_atReset : Link.atReset.SoundCore :=
  ⟨⟨fun _ e => (nomatch e), by decide, (nomatch ·), fun _ e => (nomatch e), fun _ _ e => (nomatch e)⟩, fun _ e => (nomatch e)⟩

theorem linkKept_soundCore : LinkKeptByEvent fun _ l => l.SoundCore where
  reset _ := Link.soundCore_atReset
  choose h hi hc := (h.free hi).choice hc
  reply _ h _ := ⟨⟨h.seqs, h.timer, h.holdoff, h.resendFits, h.lineFits⟩, h.bursting⟩
  release h := ⟨⟨h.seqs, h.timer, h.holdoff, h.resendFits, h.lineFits⟩, h.bursting⟩
  readAck a h := h.readAck a
  oweAck h := h.oweAck
  acceptOpen {p l} seq h := by
    unfold Link.acceptOpen
    exact Link.SoundCore.oweAck (h.emptied rfl rfl rfl h.holdoff rfl)
  refuseOpen _ h := ⟨⟨h.seqs, h.timer, h.holdoff, h.resendFits, h.lineFits⟩, h.bursting⟩
  rto h _ _ := ⟨⟨h.seqs, h.timer, h.holdoff, h.resendFits, h.lineFits⟩, h.bursting⟩
  noSession h := ⟨⟨h.seqs, h.timer, h.holdoff, h.resendFits, h.lineFits⟩, h.bursting⟩
  accept seq h _ := Link.SoundCore.oweAck ⟨⟨h.seqs, h.timer, h.holdoff, h.resendFits, h.lineFits⟩, h.bursting⟩
  giveUp h := h.emptied rfl rfl rfl ((nomatch ·)) rfl
  retry n f d h hrun _ := h.retry hrun n f d
  holdoff h := ⟨⟨h.seqs, h.timer, (nomatch ·), h.resendFits, h.lineFits⟩, h.bursting⟩
  frameEnd n f d h _ := h.endFrame.served (Link.endFrame_idle _) n f d

theorem linkKept_framer : LinkKeptByEvent fun _ l => l.framer.sound where
  reset _ := Framer.sound_atReset
  choose h _ hc := by rw [(choice_spec hc).1.framer]; exact h
  reply _ h _ := h
  release h := h
  readAck a h := by rw [(Link.readAck_keeps a _).2.2.1]; exact h
  oweAck h := by rw [(Link.oweAck_keeps _).2.2.1]; exact h
  acceptOpen _ h := by rw [Link.acceptOpen, (Link.oweAck_keeps _).2.2.1]; exact h
  refuseOpen _ h := h
  rto h _ _ := h
  noSession h := h
  accept seq h _ := by rw [(Link.accept_keeps seq _).2.2.1]; exact h
  giveUp h := h
  retry n f d h _ _ := by
    unfold Link.served
    split
    · cases hc : choice n f _ d with
      | none => exact h
      | some x => rw [Option.getD_some, (choice_spec hc).1.framer]; exact h
    · exact h
  holdoff h := h
  frameEnd {p l} n f d h _ := by
    have e : l.endFrame.framer = l.framer := by
      unfold Link.endFrame
      split
      · split <;> rfl
      · rfl
    rw [← e] at h
    unfold Link.served
    split
    · cases hc : choice n f l.endFrame d with
      | none => exact h
      | some x => rw [Option.getD_some, (choice_spec hc).1.framer]; exact h
    · exact h

/-- Bytes alone make the framers change: what they take keeps them sound (R112 to R114). -/
theorem keptByStep_framers : KeptByStep fun s => ∀ p, (s.link.get p).framer.sound where
  toKeptByEvent := linkKept_framer.keptByEvent
  arrivingByte {s} p x h := by
    unfold takeArrivingByte
    split
    · rename_i hb
      obtain ⟨h1, h2, h3, h4⟩ := h p
      exact framers_setFramer h ⟨h1, h2, fun e => Bool.noConfusion (hb.symm.trans e), h4⟩
    · rename_i hb
      have hbad := Bool.eq_false_iff.mpr hb
      have hnil : (framerOf s p).backlog.length = 0 := by exact congrArg List.length (((Framer.sound_iff _).mp (h p)).2 hbad)
      have hbut := soundBut_of_forall h p
      rw [hnil] at hbut
      exact forall_sound_of_but (framersSoundBut_feed hbut hbad x)
  badFrame {s} p h := by
    unfold takeBadFrame
    simp only
    split
    · exact drain_framers (framersSoundBut_setFramer (soundBut_of_forall h p) (Framer.soundCore_hunting _) le_rfl)
    · exact h
  gapExpiry {s} p h := by
    unfold takeGapExpiry
    split
    · rename_i hg
      have hbad : (framerOf s p).holdsBadFrame = false := by
        have e : true = ((framerOf s p).state == .collect && !(framerOf s p).holdsBadFrame) := hg.symm.trans (h p).2.1
        rw [eq_comm, Bool.and_eq_true, Bool.not_eq_true'] at e
        exact e.2
      refine framers_setFramer h ((Framer.sound_iff _).mpr ⟨Framer.soundCore_hunting _, fun _ => ?_⟩)
      exact ((Framer.sound_iff _).mp (h p)).2 hbad
    · exact h

/-- Settles O59: the framers, which bytes alone change, apart from the rest of a Link Unit, which no byte changes. -/
theorem stepKeepsLinksSound : Obligations.StepKeepsLinksSound := by
  intro s t h hs
  have hcore := (linkKept_soundCore.keptByStep fun _ h =>
    ⟨⟨h.seqs, h.timer, h.holdoff, h.resendFits, h.lineFits⟩, h.bursting⟩).step (fun p => ((Link.sound_iff _).mp (h p)).1) hs
  have hframers := keptByStep_framers.step (fun p => ((Link.sound_iff _).mp (h p)).2) hs
  exact fun p => (Link.sound_iff _).mpr ⟨hcore p, hframers p⟩

end Sys2Proof.Machine

/-! ## Codes of named fields and the reading of requests (R156 to R162) -/

namespace Sys2Proof.Machine

/-! ### Bytes and 16-bit quantities (R156) -/

@[simp] theorem byteOf_toNat (b : Byte) : byteOf b.toNat = b := by
  simp only [byteOf, BitVec.ofNat_toNat, BitVec.setWidth_eq]

theorem toNat_byteOf (n : Nat) : (byteOf n).toNat = n % 256 := by
  simp only [byteOf, BitVec.toNat_ofNat]

theorem toNat_byteOf_of_lt {n : Nat} (h : n < 256) : (byteOf n).toNat = n := by
  rw [toNat_byteOf, Nat.mod_eq_of_lt h]

theorem eq_byteOf_iff {b : Byte} {n : Nat} (h : n < 256) : b = byteOf n ↔ b.toNat = n := by
  rw [← BitVec.toNat_inj, toNat_byteOf_of_lt h]

theorem toNat_hiByte (w : Word16) : (hiByte w).toNat = w.toNat / 256 := by
  have hw := w.isLt
  simp only [hiByte, BitVec.extractLsb'_toNat, Nat.shiftRight_eq_div_pow]
  omega

theorem toNat_loByte (w : Word16) : (loByte w).toNat = w.toNat % 256 := by
  simp only [loByte, BitVec.extractLsb'_toNat, Nat.shiftRight_zero, Nat.reducePow]

theorem toNat_wordOf (hi lo : Byte) : (wordOf hi lo).toNat = hi.toNat * 256 + lo.toNat := by
  rw [wordOf, BitVec.toNat_append, ← Nat.shiftLeft_add_eq_or_of_lt lo.isLt, Nat.shiftLeft_eq]

@[simp] theorem wordOf_hiByte_loByte (w : Word16) : wordOf (hiByte w) (loByte w) = w := by
  apply BitVec.eq_of_toNat_eq
  rw [toNat_wordOf, toNat_hiByte, toNat_loByte]
  omega

@[simp] theorem hiByte_wordOf (hi lo : Byte) : hiByte (wordOf hi lo) = hi := by
  have hlo := lo.isLt
  apply BitVec.eq_of_toNat_eq
  rw [toNat_hiByte, toNat_wordOf]
  omega

@[simp] theorem loByte_wordOf (hi lo : Byte) : loByte (wordOf hi lo) = lo := by
  have hlo := lo.isLt
  apply BitVec.eq_of_toNat_eq
  rw [toNat_loByte, toNat_wordOf]
  omega

/-! ### A code is read as the name it stands for, every other value as none (R157, R162) -/

theorem readRole_eq_some {b : Byte} {x : Role} : readRole b = some x ↔ b = x.code := by
  unfold readRole
  cases x <;> split_ifs <;> simp_all [Role.code]

theorem readMode_eq_some {b : Byte} {x : Mode} : readMode b = some x ↔ b = x.code := by
  unfold readMode
  cases x <;> split_ifs <;> simp_all [Mode.code]

theorem readSwitchMode_eq_some {b : Byte} {x : SwitchMode} : readSwitchMode b = some x ↔ b = x.code := by
  unfold readSwitchMode
  cases x <;> split_ifs <;> simp_all [SwitchMode.code]

theorem readMatrixType_eq_some {b : Byte} {x : MatrixType} : readMatrixType b = some x ↔ b = x.code := by
  unfold readMatrixType
  cases x <;> split_ifs <;> simp_all [MatrixType.code]

theorem readFramePeriod_eq_some {b : Byte} {x : FramePeriod} : readFramePeriod b = some x ↔ b = x.code := by
  unfold readFramePeriod
  cases x <;> split_ifs <;> simp_all [FramePeriod.code]

theorem readWatchPeriod_eq_some {b : Byte} {x : WatchPeriod} : readWatchPeriod b = some x ↔ b = x.code := by
  unfold readWatchPeriod
  cases x <;> split_ifs <;> simp_all [WatchPeriod.code]

theorem readScanOp_eq_some {b : Byte} {x : ScanOp} : readScanOp b = some x ↔ b = x.code := by
  unfold readScanOp
  cases x <;> split_ifs <;> simp_all [ScanOp.code]

theorem readGroup_eq_some {b : Byte} {g : Group} : readGroup b = some g ↔ b.toNat = g.val := by
  unfold readGroup
  split
  · rw [Option.some.injEq, Fin.ext_iff]
  · rename_i h
    exact ⟨(nomatch ·), fun e => absurd (e ▸ g.isLt) h⟩

theorem readIndex_eq_some {b : Byte} {k : Fin 128} : readIndex b = some k ↔ b.toNat = k.val := by
  unfold readIndex
  split
  · rw [Option.some.injEq, Fin.ext_iff]
  · rename_i h
    exact ⟨(nomatch ·), fun e => absurd (e ▸ k.isLt) h⟩

theorem readGroup_eq_some_byteOf {b : Byte} {g : Group} : readGroup b = some g ↔ b = byteOf g.val := by
  rw [readGroup_eq_some, eq_byteOf_iff (by omega)]

theorem readIndex_eq_some_byteOf {b : Byte} {k : Fin 128} : readIndex b = some k ↔ b = byteOf k.val := by
  rw [readIndex_eq_some, eq_byteOf_iff (by omega)]

theorem toNat_groupCode (g : Option Group) : (groupCode g).toNat = match g with | some g => g.val | none => 255 := by
  cases g with
  | none => rfl
  | some g => exact toNat_byteOf_of_lt (by omega)

theorem toNat_followCode (k : Option Key) : (followCode k).toNat = match k with | some k => k.val | none => 255 := by
  cases k with
  | none => rfl
  | some k => exact toNat_byteOf_of_lt (by omega)

theorem readGroupOrNone_eq_some {b : Byte} {g : Option Group} : readGroupOrNone b = some g ↔ b = groupCode g := by
  unfold readGroupOrNone
  split
  · rename_i hb
    subst hb
    rw [Option.some.injEq, ← BitVec.toNat_inj, toNat_groupCode]
    cases g with
    | none => simp
    | some g =>
      have h255 : (255 : Byte).toNat = 255 := rfl
      have hg := g.isLt
      simp only [reduceCtorEq, false_iff, h255]
      omega
  · rename_i hb
    cases g with
    | none => simp only [Option.map_eq_some_iff, reduceCtorEq, and_false, exists_false, groupCode, hb]
    | some g => simp only [Option.map_eq_some_iff, Option.some.injEq, exists_eq_right, readGroup_eq_some_byteOf, groupCode]

theorem readFollow_eq_some {b : Byte} {k : Option Key} : readFollow b = some k ↔ b = followCode k := by
  unfold readFollow
  split
  · rename_i hb
    subst hb
    rw [Option.some.injEq, ← BitVec.toNat_inj, toNat_followCode]
    cases k with
    | none => simp
    | some k =>
      have h255 : (255 : Byte).toNat = 255 := rfl
      have hk := k.isLt
      simp only [reduceCtorEq, false_iff, h255]
      omega
  · rename_i hb
    cases k with
    | none => simp only [Option.map_eq_some_iff, reduceCtorEq, and_false, exists_false, followCode, hb]
    | some k => simp only [Option.map_eq_some_iff, Option.some.injEq, exists_eq_right, readIndex_eq_some_byteOf, followCode]

theorem readDebounce_eq_some {b : Byte} {n : Nat} : readDebounce b = some n ↔ b = byteOf n ∧ 1 ≤ n ∧ n ≤ 15 := by
  unfold readDebounce
  split
  · rename_i h
    rw [Option.some.injEq]
    constructor
    · rintro rfl
      exact ⟨(byteOf_toNat b).symm, h⟩
    · rintro ⟨rfl, _, hn⟩
      exact toNat_byteOf_of_lt (by omega)
  · rename_i h
    refine ⟨(nomatch ·), ?_⟩
    rintro ⟨rfl, hn⟩
    rw [toNat_byteOf_of_lt (by omega)] at h
    exact absurd hn h

/-- Settles O53: codes and layouts by their definitions, the readings by the lemmas above. -/
theorem codesAndRequestLayouts : Obligations.CodesAndRequestLayouts := by
  refine ⟨?_, fun b => ?_, fun n w => ⟨toNat_byteOf n, toNat_hiByte w, toNat_loByte w, wordOf_hiByte_loByte w⟩, fun ask => ?_,
    fun _ => rfl, fun _ _ _ _ _ => ?_⟩
  · refine ⟨rfl, rfl, rfl, rfl, rfl, rfl, rfl, rfl, rfl, rfl, rfl, rfl, rfl, rfl, rfl, rfl, rfl, rfl, rfl, rfl, rfl, fun g => ?_, fun k => ?_⟩
    · exact (toNat_groupCode g).trans (by cases g <;> rfl)
    · exact (toNat_followCode k).trans (by cases k <;> rfl)
  · exact ⟨fun _ => readRole_eq_some, fun _ => readMode_eq_some, fun _ => readSwitchMode_eq_some, fun _ => readMatrixType_eq_some,
      fun _ => readFramePeriod_eq_some, fun _ => readWatchPeriod_eq_some, fun _ => readScanOp_eq_some, fun _ => readGroup_eq_some,
      fun _ => readGroupOrNone_eq_some, fun _ => readIndex_eq_some, fun _ => readFollow_eq_some⟩
  · cases ask <;> rfl
  · exact ⟨rfl, rfl, rfl, rfl, rfl, rfl, rfl, rfl, rfl, rfl, rfl, rfl, rfl, rfl, rfl, rfl, rfl, rfl, rfl⟩

/-! ### Lists of entries (R159) -/

theorem readLampEntries_eq_some :
    ∀ {bs : List Byte} {es : List (Lamp × SwitchMode)},
      readLampEntries bs = some es ↔ bs = es.flatMap fun e => [byteOf e.1.val, e.2.code]
  | [], es => by cases es <;> simp [readLampEntries]
  | [b], es => by cases es <;> simp [readLampEntries]
  | l :: m :: rest, [] => by
    simp only [readLampEntries, List.flatMap_nil, reduceCtorEq, iff_false]
    split <;> simp
  | l :: m :: rest, e :: es => by
    simp only [List.flatMap_cons, List.cons_append, List.nil_append, List.cons.injEq, ← readIndex_eq_some_byteOf,
      ← readSwitchMode_eq_some, ← readLampEntries_eq_some (bs := rest), readLampEntries]
    split
    · rename_i hl hm hr
      simp only [hl, hm, hr, Option.some.injEq, List.cons.injEq, Prod.ext_iff, and_assoc]
    · rename_i hno
      exact ⟨(nomatch ·), fun ⟨hl, hm, hr⟩ => (hno _ _ _ hl hm hr).elim⟩

theorem readKeyEntries_eq_some :
    ∀ {bs : List Byte} {es : List (Key × Option Group)},
      readKeyEntries bs = some es ↔ bs = es.flatMap fun e => [byteOf e.1.val, groupCode e.2]
  | [], es => by cases es <;> simp [readKeyEntries]
  | [b], es => by cases es <;> simp [readKeyEntries]
  | k :: g :: rest, [] => by
    simp only [readKeyEntries, List.flatMap_nil, reduceCtorEq, iff_false]
    split <;> simp
  | k :: g :: rest, e :: es => by
    simp only [List.flatMap_cons, List.cons_append, List.nil_append, List.cons.injEq, ← readIndex_eq_some_byteOf,
      ← readGroupOrNone_eq_some, ← readKeyEntries_eq_some (bs := rest), readKeyEntries]
    split
    · rename_i hk hg hr
      simp only [hk, hg, hr, Option.some.injEq, List.cons.injEq, Prod.ext_iff, and_assoc]
    · rename_i hno
      exact ⟨(nomatch ·), fun ⟨hk, hg, hr⟩ => (hno _ _ _ hk hg hr).elim⟩

theorem readMapEntries_eq_some :
    ∀ {bs : List Byte} {es : List (Lamp × Option Group × Option Key)},
      readMapEntries bs = some es ↔ bs = es.flatMap fun e => [byteOf e.1.val, groupCode e.2.1, followCode e.2.2]
  | [], es => by cases es <;> simp [readMapEntries]
  | [b], es => by cases es <;> simp [readMapEntries]
  | [b, c], es => by cases es <;> simp [readMapEntries]
  | l :: g :: k :: rest, [] => by
    simp only [readMapEntries, List.flatMap_nil, reduceCtorEq, iff_false]
    split <;> simp
  | l :: g :: k :: rest, e :: es => by
    simp only [List.flatMap_cons, List.cons_append, List.nil_append, List.cons.injEq, ← readIndex_eq_some_byteOf,
      ← readGroupOrNone_eq_some, ← readFollow_eq_some, ← readMapEntries_eq_some (bs := rest), readMapEntries]
    split
    · rename_i hl hg hk hr
      simp only [hl, hg, hk, hr, Option.some.injEq, List.cons.injEq, Prod.ext_iff, and_assoc]
    · rename_i hno
      exact ⟨(nomatch ·), fun ⟨hl, hg, hk, hr⟩ => (hno _ _ _ _ hl hg hk hr).elim⟩

/-! ### Decoding (R161) -/

theorem decodeRequest_eq_ok {typ : Byte} {payload : List Byte} {a : Ask} :
    decodeRequest typ payload = .ok a ↔
      knownRequestType typ = true ∧ lenFits typ (payload.length + 3) = true ∧ readAsk typ payload = some a := by
  unfold decodeRequest
  cases knownRequestType typ with
  | false => simp
  | true =>
    cases lenFits typ (payload.length + 3) with
    | false => simp
    | true => cases readAsk typ payload <;> simp

theorem readScanSetup_eq_some {bs : List Byte} {su : ScanSetup} :
    readScanSetup bs = some su ↔ bs = su.payload ∧ su.inRange = true := by
  obtain ⟨fp, np, nr, mt, mask, il, wp, sl⟩ := su
  constructor
  · intro h
    unfold readScanSetup at h
    split at h
    · split at h <;> cases h
      rename_i hfp hnp hnr hmt hwp
      rw [readFramePeriod_eq_some] at hfp
      rw [readDebounce_eq_some] at hnp hnr
      rw [readMatrixType_eq_some] at hmt
      rw [readWatchPeriod_eq_some] at hwp
      obtain ⟨rfl, hnp⟩ := hnp
      obtain ⟨rfl, hnr⟩ := hnr
      subst hfp hmt hwp
      refine ⟨by simp only [ScanSetup.payload, hiByte_wordOf, loByte_wordOf, byteOf_toNat], ?_⟩
      exact decide_eq_true ⟨hnp.1, hnp.2, hnr.1, hnr.2, Nat.le_of_lt_succ (BitVec.isLt _), Nat.le_of_lt_succ (BitVec.isLt _)⟩
    · cases h
  · rintro ⟨rfl, hr⟩
    obtain ⟨hnp1, hnp2, hnr1, hnr2, hil, hsl⟩ := of_decide_eq_true hr
    simp only at hnp1 hnp2 hnr1 hnr2 hil hsl
    have hil' : (byteOf il).toNat = il := toNat_byteOf_of_lt (by omega)
    have hsl' : (byteOf sl).toNat = sl := toNat_byteOf_of_lt (by omega)
    simp only [readScanSetup, ScanSetup.payload, readFramePeriod_eq_some.mpr rfl, readDebounce_eq_some.mpr ⟨rfl, hnp1, hnp2⟩,
      readDebounce_eq_some.mpr ⟨rfl, hnr1, hnr2⟩, readMatrixType_eq_some.mpr rfl, readWatchPeriod_eq_some.mpr rfl, wordOf_hiByte_loByte,
      hil', hsl']

theorem length_flatMap_pair {α : Type} (f g : α → Byte) (es : List α) : (es.flatMap fun e => [f e, g e]).length = 2 * es.length := by
  simp only [List.length_flatMap, List.length_cons, List.length_nil, List.map_const', List.sum_replicate, smul_eq_mul]
  omega

theorem length_flatMap_triple {α : Type} (f g h : α → Byte) (es : List α) :
    (es.flatMap fun e => [f e, g e, h e]).length = 3 * es.length := by
  simp only [List.length_flatMap, List.length_cons, List.length_nil, List.map_const', List.sum_replicate, smul_eq_mul]
  omega

/-- What a request in range asks is read back from the payload written for it (R158 to R162). -/
theorem decodeRequest_payload {ask : Ask} (h : ask.inRange = true) : decodeRequest ask.typ ask.payload = .ok ask := by
  rw [decodeRequest_eq_ok]
  cases ask with
  | close => exact ⟨rfl, rfl, rfl⟩
  | status => exact ⟨rfl, rfl, rfl⟩
  | reset => exact ⟨rfl, rfl, rfl⟩
  | grant n =>
    have hn : n ≤ 127 := of_decide_eq_true h
    have e : (byteOf n).toNat = n := toNat_byteOf_of_lt (by omega)
    refine ⟨rfl, rfl, ?_⟩
    show (if (byteOf n).toNat ≤ 127 then some (Ask.grant (byteOf n).toNat) else none) = _
    rw [e, if_pos hn]
  | join g m =>
    refine ⟨rfl, rfl, ?_⟩
    show (match readGroup (byteOf g.val), readMode m.code with
      | some g, some m => some (Ask.join g m)
      | _, _ => none) = _
    rw [readGroup_eq_some_byteOf.mpr rfl, readMode_eq_some.mpr rfl]
  | leave g => exact ⟨rfl, rfl, congrArg (Option.map Ask.leave) (readGroup_eq_some_byteOf.mpr rfl)⟩
  | snapshot g => exact ⟨rfl, rfl, congrArg (Option.map Ask.snapshot) (readGroup_eq_some_byteOf.mpr rfl)⟩
  | dissolve g => exact ⟨rfl, rfl, congrArg (Option.map Ask.dissolve) (readGroup_eq_some_byteOf.mpr rfl)⟩
  | scanControl op => exact ⟨rfl, rfl, congrArg (Option.map Ask.scanControl) (readScanOp_eq_some.mpr rfl)⟩
  | scanSetup su => exact ⟨rfl, rfl, congrArg (Option.map Ask.scanSetup) (readScanSetup_eq_some.mpr ⟨rfl, h⟩)⟩
  | groupSetup g delay interval =>
    obtain ⟨hd, hi1, hi2⟩ := of_decide_eq_true h
    have ed : (byteOf delay).toNat = delay := toNat_byteOf_of_lt (by omega)
    have ei : (byteOf interval).toNat = interval := toNat_byteOf_of_lt (by omega)
    refine ⟨rfl, rfl, ?_⟩
    show (match readGroup (byteOf g.val) with
      | some g => if 1 ≤ (byteOf interval).toNat then some (Ask.groupSetup g (byteOf delay).toNat (byteOf interval).toNat) else none
      | none => none) = _
    rw [readGroup_eq_some_byteOf.mpr rfl, ed, ei]
    exact if_pos hi1
  | lamps es =>
    obtain ⟨h1, h2⟩ := of_decide_eq_true h
    refine ⟨rfl, ?_, congrArg (Option.map Ask.lamps) (readLampEntries_eq_some.mpr rfl)⟩
    show decide (_ ∧ _ ∧ _) = true
    rw [Ask.payload, length_flatMap_pair, decide_eq_true_eq]
    omega
  | mapKeys es =>
    obtain ⟨h1, h2⟩ := of_decide_eq_true h
    refine ⟨rfl, ?_, congrArg (Option.map Ask.mapKeys) (readKeyEntries_eq_some.mpr rfl)⟩
    show decide (_ ∧ _ ∧ _) = true
    rw [Ask.payload, length_flatMap_pair, decide_eq_true_eq]
    omega
  | mapLamps es =>
    obtain ⟨h1, h2⟩ := of_decide_eq_true h
    refine ⟨rfl, ?_, congrArg (Option.map Ask.mapLamps) (readMapEntries_eq_some.mpr rfl)⟩
    show decide (_ ∧ _ ∧ _) = true
    rw [Ask.payload, length_flatMap_triple, decide_eq_true_eq]
    omega

/-- The table of R161: which TYPE has a length that fits, and which length. -/
theorem lenFits_cases {typ : Byte} {len : Nat} (h : lenFits typ len = true) :
    ((typ = typeClose ∨ typ = typeStatus ∨ typ = typeReset) ∧ len = 3) ∨
      ((typ = typeGrant ∨ typ = typeLeave ∨ typ = typeSnapshot ∨ typ = typeDissolve ∨ typ = typeScanControl) ∧ len = 4) ∨
      (typ = typeJoin ∧ len = 5) ∨ (typ = typeGroupSetup ∧ len = 6) ∨ (typ = typeOpen ∧ len = 7) ∨ (typ = typeScanSetup ∧ len = 12) ∨
      ((typ = typeLamps ∨ typ = typeMapKeys) ∧ 5 ≤ len ∧ len ≤ 67 ∧ len % 2 = 1) ∨
      (typ = typeMapLamps ∧ 6 ≤ len ∧ len ≤ 66 ∧ len % 3 = 0) := by
  unfold lenFits at h
  split at h
  · rename_i ht
    exact Or.inl ⟨ht, by simpa using h⟩
  split at h
  · rename_i ht
    exact Or.inr (Or.inl ⟨ht, by simpa using h⟩)
  split at h
  · rename_i ht
    exact Or.inr (Or.inr (Or.inl ⟨ht, by simpa using h⟩))
  split at h
  · rename_i ht
    exact Or.inr (Or.inr (Or.inr (Or.inl ⟨ht, by simpa using h⟩)))
  split at h
  · rename_i ht
    exact Or.inr (Or.inr (Or.inr (Or.inr (Or.inl ⟨ht, by simpa using h⟩))))
  split at h
  · rename_i ht
    exact Or.inr (Or.inr (Or.inr (Or.inr (Or.inr (Or.inl ⟨ht, by simpa using h⟩)))))
  split at h
  · rename_i ht
    exact Or.inr (Or.inr (Or.inr (Or.inr (Or.inr (Or.inr (Or.inl ⟨ht, of_decide_eq_true h⟩))))))
  split at h
  · rename_i ht
    exact Or.inr (Or.inr (Or.inr (Or.inr (Or.inr (Or.inr (Or.inr ⟨ht, of_decide_eq_true h⟩))))))
  · cases h

/-! What is read from the payload of each TYPE, whose length is the one that fits. -/

theorem readAsk_byte_eq_some {a : Byte} {typ : Byte} {ask : Ask} (h : readAsk typ [a] = some ask)
    (ht : typ = typeGrant ∨ typ = typeLeave ∨ typ = typeSnapshot ∨ typ = typeDissolve ∨ typ = typeScanControl) :
    ask.typ = typ ∧ ask.payload = [a] ∧ ask.inRange = true := by
  rcases ht with rfl | rfl | rfl | rfl | rfl
  · replace h : (if a.toNat ≤ 127 then some (Ask.grant a.toNat) else none) = some ask := h
    split at h <;> cases h
    rename_i ha
    exact ⟨rfl, congrArg (fun b => [b]) (byteOf_toNat a), decide_eq_true ha⟩
  · replace h : (readGroup a).map Ask.leave = some ask := h
    obtain ⟨g, hg, rfl⟩ := Option.map_eq_some_iff.mp h
    exact ⟨rfl, congrArg (fun b => [b]) (readGroup_eq_some_byteOf.mp hg).symm, rfl⟩
  · replace h : (readGroup a).map Ask.snapshot = some ask := h
    obtain ⟨g, hg, rfl⟩ := Option.map_eq_some_iff.mp h
    exact ⟨rfl, congrArg (fun b => [b]) (readGroup_eq_some_byteOf.mp hg).symm, rfl⟩
  · replace h : (readGroup a).map Ask.dissolve = some ask := h
    obtain ⟨g, hg, rfl⟩ := Option.map_eq_some_iff.mp h
    exact ⟨rfl, congrArg (fun b => [b]) (readGroup_eq_some_byteOf.mp hg).symm, rfl⟩
  · replace h : (readScanOp a).map Ask.scanControl = some ask := h
    obtain ⟨op, hop, rfl⟩ := Option.map_eq_some_iff.mp h
    exact ⟨rfl, congrArg (fun b => [b]) (readScanOp_eq_some.mp hop).symm, rfl⟩

theorem readAsk_join_eq_some {a b : Byte} {ask : Ask} (h : readAsk typeJoin [a, b] = some ask) :
    ask.typ = typeJoin ∧ ask.payload = [a, b] ∧ ask.inRange = true := by
  replace h : (match readGroup a, readMode b with
    | some g, some m => some (Ask.join g m)
    | _, _ => none) = some ask := h
  split at h <;> cases h
  rename_i g m hg hm
  rw [readGroup_eq_some_byteOf] at hg
  rw [readMode_eq_some] at hm
  subst hg hm
  exact ⟨rfl, rfl, rfl⟩

theorem readAsk_groupSetup_eq_some {a b c : Byte} {ask : Ask} (h : readAsk typeGroupSetup [a, b, c] = some ask) :
    ask.typ = typeGroupSetup ∧ ask.payload = [a, b, c] ∧ ask.inRange = true := by
  replace h : (match readGroup a with
    | some g => if 1 ≤ c.toNat then some (Ask.groupSetup g b.toNat c.toNat) else none
    | none => none) = some ask := h
  split at h
  · rename_i g hg
    rw [readGroup_eq_some_byteOf] at hg
    split at h <;> cases h
    rename_i hc
    subst hg
    refine ⟨rfl, by simp only [Ask.payload, byteOf_toNat], ?_⟩
    exact decide_eq_true ⟨Nat.le_of_lt_succ b.isLt, hc, Nat.le_of_lt_succ c.isLt⟩
  · cases h

/-- A payload that is read is the one written for what was read; in range, if its length fits (R158 to R162). -/
theorem readAsk_eq_some {typ : Byte} {payload : List Byte} {ask : Ask} (hl : lenFits typ (payload.length + 3) = true)
    (h : readAsk typ payload = some ask) : ask.typ = typ ∧ ask.payload = payload ∧ ask.inRange = true := by
  obtain ⟨ht, hn⟩ | ⟨ht, hn⟩ | ⟨rfl, hn⟩ | ⟨rfl, hn⟩ | ⟨rfl, hn⟩ | ⟨rfl, hn⟩ | ⟨ht, hn⟩ | ⟨rfl, hn⟩ := lenFits_cases hl
  · obtain rfl := List.eq_nil_of_length_eq_zero (show payload.length = 0 by omega)
    rcases ht with rfl | rfl | rfl <;> cases h <;> exact ⟨rfl, rfl, rfl⟩
  · obtain ⟨a, rfl⟩ := List.length_eq_one_iff.mp (show payload.length = 1 by omega)
    exact readAsk_byte_eq_some h ht
  · obtain ⟨a, b, rfl⟩ := List.length_eq_two.mp (show payload.length = 2 by omega)
    exact readAsk_join_eq_some h
  · obtain ⟨a, b, c, rfl⟩ := List.length_eq_three.mp (show payload.length = 3 by omega)
    exact readAsk_groupSetup_eq_some h
  · match payload, hn with
    | [_, _, _, _], _ => cases h
  · replace h : (readScanSetup payload).map Ask.scanSetup = some ask := h
    obtain ⟨su, he, rfl⟩ := Option.map_eq_some_iff.mp h
    rw [readScanSetup_eq_some] at he
    exact ⟨rfl, he.1.symm, he.2⟩
  · rcases ht with rfl | rfl
    · replace h : (readLampEntries payload).map Ask.lamps = some ask := h
      obtain ⟨es, he, rfl⟩ := Option.map_eq_some_iff.mp h
      rw [readLampEntries_eq_some] at he
      subst he
      rw [length_flatMap_pair] at hn
      exact ⟨rfl, rfl, decide_eq_true (by omega)⟩
    · replace h : (readKeyEntries payload).map Ask.mapKeys = some ask := h
      obtain ⟨es, he, rfl⟩ := Option.map_eq_some_iff.mp h
      rw [readKeyEntries_eq_some] at he
      subst he
      rw [length_flatMap_pair] at hn
      exact ⟨rfl, rfl, decide_eq_true (by omega)⟩
  · replace h : (readMapEntries payload).map Ask.mapLamps = some ask := h
    obtain ⟨es, he, rfl⟩ := Option.map_eq_some_iff.mp h
    rw [readMapEntries_eq_some] at he
    subst he
    rw [length_flatMap_triple] at hn
    exact ⟨rfl, rfl, decide_eq_true (by omega)⟩

theorem decodeRequest_ok {typ : Byte} {payload : List Byte} {ask : Ask} (h : decodeRequest typ payload = .ok ask) :
    ask.typ = typ ∧ ask.payload = payload ∧ ask.inRange = true := by
  obtain ⟨_, hl, hr⟩ := decodeRequest_eq_ok.mp h
  exact readAsk_eq_some hl hr

theorem decodeOpen_eq_ok {payload : List Byte} {o : OpenAsk} :
    decodeOpen payload = .ok o ↔ o.payload = payload ∧ 1 ≤ o.rto ∧ o.rto ≤ 255 := by
  constructor
  · intro h
    refine ⟨?_, decodeOpen_rto h⟩
    unfold decodeOpen at h
    split at h
    · split at h
      · rename_i hr
        split at h <;> cases h
        rw [readRole_eq_some] at hr
        simp only [OpenAsk.payload, byteOf_toNat, hiByte_wordOf, loByte_wordOf, hr]
      · cases h
    · cases h
  · rintro ⟨rfl, h1, h2⟩
    have e : (byteOf o.rto).toNat = o.rto := toNat_byteOf_of_lt (by omega)
    simp only [decodeOpen, OpenAsk.payload, readRole_eq_some.mpr rfl, e, h1, if_true, wordOf_hiByte_loByte]

/-- Settles O51: the two directions of reading what was written, for every request and for OPEN. -/
theorem decodeOfWritten : Obligations.DecodeOfWritten :=
  ⟨fun _ h => decodeRequest_payload h, fun _ _ _ h => decodeRequest_ok h, fun _ h1 h2 => decodeOpen_eq_ok.mpr ⟨rfl, h1, h2⟩,
    fun _ _ h => decodeOpen_eq_ok.mp h⟩

end Sys2Proof.Machine

/-! ### The refusals of decoding (R161) -/

namespace Sys2Proof.Machine

theorem knownRequestType_iff {t : Byte} :
    knownRequestType t = true ↔ (1 ≤ t.toNat ∧ t.toNat ≤ 8) ∨ (0x10 ≤ t.toNat ∧ t.toNat ≤ 0x16) := by
  simp only [knownRequestType, Bool.or_eq_true, Bool.and_eq_true, decide_eq_true_eq]

/-- The TYPEs the part knows, one by one. -/
theorem knownRequestType_cases {t : Byte} (h : knownRequestType t = true) :
    t = 0x01 ∨ t = 0x02 ∨ t = 0x03 ∨ t = 0x04 ∨ t = 0x05 ∨ t = 0x06 ∨ t = 0x07 ∨ t = 0x08 ∨ t = 0x10 ∨ t = 0x11 ∨ t = 0x12 ∨ t = 0x13 ∨
      t = 0x14 ∨ t = 0x15 ∨ t = 0x16 := by
  rw [knownRequestType_iff] at h
  bv_omega

theorem decodeRequest_unknownType {typ : Byte} {payload : List Byte} (h : knownRequestType typ = false) :
    decodeRequest typ payload = .refused .unknownType := by
  simp only [decodeRequest, h, Bool.not_false, if_true]

theorem decodeRequest_badLength {typ : Byte} {payload : List Byte} (h : knownRequestType typ = true)
    (hl : lenFits typ (payload.length + 3) = false) : decodeRequest typ payload = .refused .badLength := by
  simp only [decodeRequest, h, hl, Bool.not_true, Bool.not_false, Bool.false_eq_true, if_false, if_true]

theorem decodeRequest_fitting {typ : Byte} {payload : List Byte} (h : knownRequestType typ = true)
    (hl : lenFits typ (payload.length + 3) = true) {st : Status} (hd : decodeRequest typ payload = .refused st) : st = .badValue := by
  simp only [decodeRequest, h, hl, Bool.not_true, Bool.false_eq_true, if_false] at hd
  split at hd <;> cases hd
  rfl

/-- The lengths of R161 as the statement lists them. -/
def LenFitsTable (typ : Byte) (len : Nat) : Prop :=
  ((typ = 0x02 ∨ typ = 0x08 ∨ typ = 0x16) → len = 3) ∧
    ((typ = 0x03 ∨ typ = 0x05 ∨ typ = 0x06 ∨ typ = 0x13 ∨ typ = 0x15) → len = 4) ∧
    (typ = 0x04 → len = 5) ∧ (typ = 0x12 → len = 6) ∧ (typ = 0x01 → len = 7) ∧ (typ = 0x14 → len = 12) ∧
    ((typ = 0x07 ∨ typ = 0x10) → 5 ≤ len ∧ len ≤ 67 ∧ len % 2 = 1) ∧
    (typ = 0x11 → 6 ≤ len ∧ len ≤ 66 ∧ len % 3 = 0)

theorem lenFits_iff_table {typ : Byte} (h : knownRequestType typ = true) (len : Nat) : lenFits typ len = true ↔ LenFitsTable typ len := by
  rcases knownRequestType_cases h with rfl | rfl | rfl | rfl | rfl | rfl | rfl | rfl | rfl | rfl | rfl | rfl | rfl | rfl | rfl <;>
    simp [lenFits, LenFitsTable, typeClose, typeStatus, typeReset, typeGrant, typeLeave, typeSnapshot, typeDissolve, typeScanControl,
      typeJoin, typeGroupSetup, typeOpen, typeScanSetup, typeLamps, typeMapKeys, typeMapLamps]

theorem decodeOpen_badLength {payload : List Byte} (h : payload.length ≠ 4) : decodeOpen payload = .refused .badLength := by
  unfold decodeOpen
  split
  · exact absurd rfl h
  · rfl

theorem decodeOpen_fitting {payload : List Byte} (h : payload.length = 4) {st : Status} (hd : decodeOpen payload = .refused st) :
    st = .badValue := by
  unfold decodeOpen at hd
  split at hd
  · split at hd
    · split at hd <;> cases hd
      rfl
    · cases hd
      rfl
  · rename_i hno
    match payload, h with
    | [r, t, hi, lo], _ => exact (hno r t hi lo rfl).elim

/-- Settles O52: the three stages of decode in their order, the second by the table of lengths. -/
theorem decodeRefusals : Obligations.DecodeRefusals := by
  refine ⟨fun typ payload => ?_, fun payload => ⟨fun h => decodeOpen_badLength (by omega), fun h _ hd => decodeOpen_fitting (by omega) hd⟩⟩
  intro len known fits
  have hknown : known ↔ knownRequestType typ = true := knownRequestType_iff.symm
  refine ⟨fun hk => ?_, fun hk hf => ?_, fun hk hf st hd => ?_⟩
  · rw [hknown, Bool.not_eq_true] at hk
    exact decodeRequest_unknownType hk
  · rw [hknown] at hk
    refine decodeRequest_badLength hk (Bool.eq_false_iff.mpr fun hl => hf ?_)
    exact (lenFits_iff_table hk len).mp hl
  · rw [hknown] at hk
    exact decodeRequest_fitting hk ((lenFits_iff_table hk len).mpr hf) hd

/-! ## The part's own messages (R156, R157, R163 to R167) -/

theorem keySetBytes_bit (s : KeySet) (i : Fin 16) (j : Fin 8) :
    ∃ b : Byte, (keySetBytes s)[i.val]? = some b ∧ b.getLsbD j.val = s.getLsbD (8 * i.val + j.val) := by
  refine ⟨s.extractLsb' (8 * i.val) 8, ?_, ?_⟩
  · simp only [keySetBytes, List.getElem?_map, List.getElem?_range i.isLt, Option.map_some]
  · simp only [BitVec.getLsbD_extractLsb', j.isLt, decide_true, Bool.true_and]

theorem groupSetBytes_bit (s : GroupSet) (i : Fin 4) (j : Fin 8) :
    ∃ b : Byte, (groupSetBytes s)[i.val]? = some b ∧ b.getLsbD j.val = s.getLsbD (8 * i.val + j.val) := by
  refine ⟨s.extractLsb' (8 * i.val) 8, ?_, ?_⟩
  · simp only [groupSetBytes, List.getElem?_map, List.getElem?_range i.isLt, Option.map_some]
  · simp only [BitVec.getLsbD_extractLsb', j.isLt, decide_true, Bool.true_and]

theorem Flags.toNat_code (f : Flags) :
    f.code.toNat = (if f.remapped then 1 else 0) + (if f.halted then 2 else 0) + (if f.wasStuck then 4 else 0) := by
  obtain ⟨remapped, halted, wasStuck⟩ := f
  cases remapped <;> cases halted <;> cases wasStuck <;> rfl

theorem frameBytes_length (typ seq ack : Byte) (payload : List Byte) : (frameBytes typ seq ack payload).length = payload.length + 7 := by
  simp only [frameBytes, frameBody, crcBytes, List.cons_append, List.length_cons, List.length_append, List.length_nil]

/-- How many bytes a frame of the part holds the line for, by what it carries (R138, R163 to R167). -/
theorem TxFrame.size_eq (f : TxFrame) :
    f.size =
      match f.body with
      | .reply r => r.data.bytes.length + 10
      | .report records => 7 + 8 * records.length
      | .notice _ _ _ => 16
      | .ack => 7
      | .noSession => 7
      | .openRefused _ => 8 := by
  unfold TxFrame.size
  cases f.body with
  | reply r => rfl
  | report records => rw [Body.payload, flatMap_bytes_length, Nat.add_comm]
  | notice changed dissolved scan => simp [Body.payload]
  | ack => rfl
  | noSession => rfl
  | openRefused st => rfl

/-- Settles O54: the sets by their bits, the codes and layouts by their definitions, the sizes by the lengths of what a frame carries. -/
theorem messageLayouts : Obligations.MessageLayouts := by
  refine ⟨fun s => ⟨keySetBytes_length s, keySetBytes_bit s⟩, fun s => ⟨groupSetBytes_length s, groupSetBytes_bit s⟩,
    ⟨rfl, rfl, rfl, rfl, rfl, rfl, rfl, rfl, rfl, rfl, rfl, rfl, rfl, rfl, rfl⟩,
    ⟨rfl, rfl, rfl, rfl, rfl, rfl, rfl, rfl, rfl, rfl, Flags.toNat_code⟩, fun data => ?_, fun r => ?_, fun body => ?_,
    fun f => ⟨rfl, frameBytes_length _ _ _ _, ?_⟩⟩
  · cases data with
    | status st frame number credits queue loss resend role admin => cases admin <;> rfl
    | none | identity | credits _ | removed _ | transition _ | snapshot _ _ _ _ _ _ | scan _ => rfl
  · cases r <;> rfl
  · cases body with
    | notice changed dissolved scan => cases scan <;> rfl
    | reply _ | report _ | ack | noSession | openRefused _ => rfl
  · rw [TxFrame.size_eq]
    cases f.body with
    | reply r =>
      simp only [ReplyData.bytes_length]
      cases r.data <;> rfl
    | report _ | notice _ _ _ | ack | noSession | openRefused _ => rfl

/-! ## The CRC (R111) -/

theorem crcBit_eq (reg : Word16) (bit : Bool) :
    crcBit reg bit = if reg.getLsbD 15 = bit then reg <<< 1 else (reg <<< 1) ^^^ 0x8005 := by
  have hmsb : reg.msb = reg.getLsbD 15 := BitVec.msb_eq_getLsbD_last reg
  unfold crcBit
  rw [hmsb]
  by_cases h : reg.getLsbD 15 = bit
  · simp only [h, bne_self_eq_false, Bool.false_eq_true, if_false, if_true]
  · simp only [bne_iff_ne, ne_eq, h, not_false_eq_true, if_true, if_false, crcPoly]

/-- The register given its own top bit shifts it out. -/
theorem crcBit_shift (reg : Word16) (n : Nat) (h : n < 16) : crcBit (reg <<< n) (reg.getLsbD (15 - n)) = reg <<< (n + 1) := by
  have htop : (reg <<< n).getLsbD 15 = reg.getLsbD (15 - n) := by
    simp only [BitVec.getLsbD_shiftLeft, Nat.reduceLT, decide_true, Bool.true_and, Nat.not_lt.mpr (Nat.le_of_lt_succ h), decide_false,
      Bool.not_false]
  rw [crcBit_eq, if_pos htop, ← BitVec.shiftLeft_add]

/-- The register given its own high byte shifts it out. -/
theorem crcByte_hiByte (reg : Word16) : crcByte reg (hiByte reg) = reg <<< 8 := by
  have hbit : ∀ i, i < 8 → (hiByte reg).getLsbD i = reg.getLsbD (8 + i) := by
    intro i hi
    simp only [hiByte, BitVec.getLsbD_extractLsb', hi, decide_true, Bool.true_and]
  have h0 : crcBit reg (reg.getLsbD 15) = reg <<< 1 := by rw [crcBit_eq, if_pos rfl]
  simp only [crcByte, bitsMsbFirst, List.foldl_cons, List.foldl_nil, hbit, Nat.reduceLT, Nat.reduceAdd, h0, crcBit_shift reg 1 (by omega),
    crcBit_shift reg 2 (by omega), crcBit_shift reg 3 (by omega), crcBit_shift reg 4 (by omega), crcBit_shift reg 5 (by omega),
    crcBit_shift reg 6 (by omega), crcBit_shift reg 7 (by omega)]

theorem hiByte_shiftLeft (reg : Word16) : hiByte (reg <<< 8) = loByte reg := by
  apply BitVec.eq_of_toNat_eq
  have h := reg.isLt
  rw [toNat_hiByte, toNat_loByte, BitVec.toNat_shiftLeft, Nat.shiftLeft_eq]
  omega

/-- Run on through its own two bytes, the register ends at 0. -/
theorem crcRun_crcBytes (reg : Word16) : crcRun reg (crcBytes reg) = 0 := by
  have h : crcByte (reg <<< 8) (loByte reg) = reg <<< 16 := by
    rw [← hiByte_shiftLeft, crcByte_hiByte, ← BitVec.shiftLeft_add]
  simp only [crcRun, crcBytes, List.foldl_cons, List.foldl_nil, crcByte_hiByte, h]
  exact BitVec.shiftLeft_eq_zero le_rfl

theorem crcBytes_eq_iff {x y : Byte} {w : Word16} : [x, y] = crcBytes w ↔ wordOf x y = w := by
  simp only [crcBytes, List.cons.injEq, and_true]
  constructor
  · rintro ⟨rfl, rfl⟩
    exact wordOf_hiByte_loByte w
  · rintro rfl
    simp only [hiByte_wordOf, loByte_wordOf, and_self]

/-- A full frame buffer holds a good frame exactly when its last two bytes are the CRC of the rest (R111). -/
theorem goodFrame?_cons {len : Byte} (typ seq a : Byte) {payload : List Byte} (x y : Byte) (h : payload.length + 3 = len.toNat) :
    goodFrame? (len :: typ :: seq :: a :: payload ++ [x, y]) =
      if wordOf x y = crc (len :: typ :: seq :: a :: payload) then some ⟨typ, seq, a, payload⟩ else none := by
  have hn : len.toNat - 3 = payload.length := by omega
  simp only [goodFrame?, List.cons_append, hn, List.take_left, List.drop_left, crcBytes_eq_iff]

/-- Settles O50: the register bit by bit; run through its own two bytes it shifts them out, and 0 is left. -/
theorem crcOfFrame : Obligations.CrcOfFrame := by
  refine ⟨crcBit_eq, fun _ _ => rfl, fun _ => rfl, fun _ _ _ _ => ⟨rfl, rfl⟩, fun len typ seq a payload x y h => ?_, fun bytes => ?_⟩
  · rw [goodFrame?_cons typ seq a x y h]
    simp
  · rw [crcRun, List.foldl_append]
    exact crcRun_crcBytes _

end Sys2Proof.Machine

/-! ## The step, the reset and the lamps' modes -/

namespace Sys2Proof.Machine

/-- Settles O1: by the definition of a step. -/
theorem stepRunsFrontCommand : Obligations.StepRunsFrontCommand :=
  ⟨fun _ _ _ => rfl, fun s h => by simp only [step, h]⟩

theorem getElem_replicate_fin {α : Type} {n : Nat} (x : α) (i : Fin n) : (Vector.replicate n x)[i] = x := by
  simp only [Fin.getElem_fin, Vector.getElem_replicate]

/-- Settles O2: the reset values of the blocks; nRST and power-up are the full reset at these straps. -/
theorem resetValues : Obligations.ResetValues := by
  refine ⟨⟨⟨rfl, rfl, rfl, rfl, rfl, rfl, rfl, rfl, rfl⟩, ⟨rfl, fun k => getElem_replicate_fin _ k⟩, fun g => ?_,
    fun l => getElem_replicate_fin _ l, ⟨rfl, fun p => PerPort.get_all _ p⟩, fun p => PerPort.get_all _ p, fun p => ?_,
    fun p => PerPort.get_all _ p, rfl, rfl, fun p => ⟨PerPort.get_all _ p, PerPort.get_all _ p⟩, rfl⟩, fun _ _ => ⟨rfl, rfl⟩⟩
  · have hg : State.reset.groups[g] = GroupRec.atReset := getElem_replicate_fin _ g
    simp only [memberMode, hg]
    exact ⟨rfl, rfl, fun p => PerPort.get_all _ p⟩
  · have hl : State.reset.link.get p = Link.atReset := PerPort.get_all _ p
    simp only [hl]
    exact ⟨rfl, rfl, rfl, rfl, rfl, rfl, rfl, rfl, rfl, rfl, rfl, rfl, rfl, rfl, rfl, rfl, rfl, rfl, rfl⟩

theorem KeyState.held_iff {st : KeyState} : st.held = true ↔ st = .down ∨ st = .releasing ∨ st = .stuck := by
  cases st <;> simp [KeyState.held]

/-- Settles O5: a lamp's answer by its mode. -/
theorem lampLitByMode : Obligations.LampLitByMode := by
  intro s n l
  refine ⟨fun h => ?_, fun h => ?_, fun h => ?_, fun h => ?_, fun k h => ?_⟩ <;> simp only [lampLit, h]
  · rw [decide_eq_true_eq, Nat.lt_succ_iff]
  · rw [decide_eq_true_eq, Nat.lt_succ_iff]
  · exact KeyState.held_iff

/-! ## The end of a column slot, the whole of it (R1 to R3) -/

theorem endSlot_next {c n : Column} (h : n.val = c.val + 1) (sense : BitVec 8) (s : State) :
    endSlot sense c s =
      beginSlot n { s with
        scan := { s.scan with recorded := recordColumn (s.scan.setup.columnMask.getLsbD c.val) sense c s.scan.recorded } } := by
  have hn : c.val + 1 < 16 := h ▸ n.isLt
  have e : n = ⟨c.val + 1, hn⟩ := Fin.ext h
  rw [e, endSlot, dif_pos hn]

theorem endSlot_last {c : Column} (h : c.val = 15) (sense : BitVec 8) (s : State) :
    endSlot sense c s =
      { s with
        scan := { s.scan with
          recorded := recordColumn (s.scan.setup.columnMask.getLsbD c.val) sense c s.scan.recorded
          phase := .frameEnd, driveLines := 0, lampLines := 0 } } := by
  rw [endSlot, dif_neg (by omega)]

/-- The end of a slot changes what the scanner holds of the slot, and nothing else. -/
theorem endSlot_eq (sense : BitVec 8) (c : Column) (s : State) :
    endSlot sense c s =
      { s with
        scan := { s.scan with
          recorded := (endSlot sense c s).scan.recorded, phase := (endSlot sense c s).scan.phase
          driveLines := (endSlot sense c s).scan.driveLines, lampLines := (endSlot sense c s).scan.lampLines } } := by
  unfold endSlot
  split <;> rfl

theorem columnLamps_bit (s : State) (frame : Word16) (c : Column) (r : Fin 8) :
    (columnLamps s frame c).getLsbD r.val = lampLit s frame (keyAt c r) := by
  rw [columnLamps, BitVec.getLsbD_ofFnLE, dif_pos r.isLt]

/-- Settles O4: what the slot's end records (R3), then either the next slot or the completion that is due. -/
theorem slotEnd : Obligations.SlotEnd := by
  refine ⟨fun s c sense hslot => ?_, fun s sense hno => ?_⟩
  · refine ⟨endSlot sense c s, exec_columnSlotEnd_of_slot hslot sense, endSlot_eq sense c s, fun c' r => ?_, fun h15 => ?_, fun n hn => ?_⟩
    · rw [endSlot_recorded, rawBit_recordColumn]
    · rw [endSlot_last h15]
      exact ⟨rfl, rfl, rfl⟩
    · rw [endSlot_next hn]
      refine ⟨rfl, rfl, fun r => ?_⟩
      simp only [beginSlot]
      cases s.scan.setup.columnMask.getLsbD n.val with
      | false => rw [if_neg Bool.false_ne_true, Bool.false_and]; exact BitVec.getLsbD_zero
      | true => rw [if_pos rfl, Bool.true_and, columnLamps_bit]; rfl
  · rw [exec_columnSlotEnd, execColumnSlotEnd]
    split
    · rename_i c hc
      exact absurd hc (hno c)
    all_goals rfl

/-! ## The step of a held key (R31, R32, R34, R36) -/

/-- The first open image of a release: with Nr in its range it has reached Nr exactly when Nr is 1. -/
theorem releaseTo_one {su : ScanSetup} (h : 1 ≤ su.nr) (k : KeyRec) :
    releaseTo su 1 k = if su.nr = 1 then (k.toUp, some (.release, Flags.none)) else ({ k with state := .releasing, count := 1 }, none) := by
  have hreached : su.nr ≤ 1 ↔ su.nr = 1 := by omega
  simp only [releaseTo, hreached]

theorem ScanSetup.one_le_nr {su : ScanSetup} (h : su.inRange = true) : 1 ≤ su.nr := (of_decide_eq_true h).2.2.1

section StepKey

variable {su : ScanSetup} {delay interval : Nat} {raw suspect : Bool} {k : KeyRec}

theorem stepKey_down (h : k.state = .down) :
    stepKey su delay interval raw suspect k = if raw then holdStep su interval k else releaseTo su 1 k := by
  simp only [stepKey, h]

theorem stepKey_releasing (h : k.state = .releasing) :
    stepKey su delay interval raw suspect k = if raw then ({ k with state := .down, count := 0 }, none) else releaseTo su (k.count + 1) k := by
  simp only [stepKey, h]

theorem stepKey_stuck (h : k.state = .stuck) :
    stepKey su delay interval raw suspect k =
      if raw then ({ k with count := 0 }, none)
      else if su.nr ≤ k.count + 1 then (k.toUp, some (.release, { Flags.none with wasStuck := true }))
      else ({ k with count := k.count + 1 }, none) := by
  simp only [stepKey, h]

end StepKey

theorem holdStep_stuck {su : ScanSetup} {k : KeyRec} (h : su.stuckLimit ≠ 0)
    (hs : su.stuckLimit * 256 ≤ min Config.countCeiling (k.stuckCount + 1)) (interval : Nat) :
    holdStep su interval k =
      ({ k with state := .stuck, count := 0, stuckCount := min Config.countCeiling (k.stuckCount + 1) }, some (.stuck, Flags.none)) := by
  rw [holdStep, if_pos ⟨h, hs⟩]

theorem holdStep_held {su : ScanSetup} {k : KeyRec}
    (h : su.stuckLimit = 0 ∨ min Config.countCeiling (k.stuckCount + 1) < su.stuckLimit * 256) (interval : Nat) :
    holdStep su interval k =
      if k.countdown = 0 then ({ k with stuckCount := min Config.countCeiling (k.stuckCount + 1) }, none)
      else if k.countdown = 1 then
        ({ k with stuckCount := min Config.countCeiling (k.stuckCount + 1), countdown := interval }, some (.repeated, Flags.none))
      else ({ k with stuckCount := min Config.countCeiling (k.stuckCount + 1), countdown := k.countdown - 1 }, none) := by
  rw [holdStep, if_neg]
  rintro ⟨h1, h2⟩
  rcases h with h | h
  · exact h1 h
  · omega

/-- Settles O8, by the key's state; a held key's step does not ask for the rectangle (R26). -/
theorem keyStepHeld : Obligations.KeyStepHeld := by
  intro s k hsetup x raw released stuck
  have hnr := ScanSetup.one_le_nr hsetup
  have hstep : stepOne s k =
    stepKey s.scan.setup (delayOf s x.group) (intervalOf s x.group) raw (suspectIn s.scan.setup.matrix s.scan.recorded k) x := rfl
  refine ⟨fun hdown => ?_, fun hreleasing => ?_, fun hstuck => ?_⟩
  · rw [hstep, stepKey_down hdown]
    refine ⟨fun hraw => ?_, fun hraw => ?_⟩
    · rw [hraw, if_neg Bool.false_ne_true, releaseTo_one hnr]
      rfl
    · rw [hraw, if_pos rfl]
      refine ⟨fun hl hs => holdStep_stuck hl hs _, fun hl => ?_⟩
      rw [holdStep_held hl]
      refine ⟨fun h0 => if_pos h0, fun h1 => ?_, fun h2 => ?_⟩
      · rw [if_neg (by omega), if_pos h1]
        rfl
      · rw [if_neg (by omega), if_neg (by omega)]
        rfl
  · rw [hstep, stepKey_releasing hreleasing]
    refine ⟨fun hraw => by rw [hraw, if_pos rfl], fun hraw => ?_⟩
    rw [hraw, if_neg Bool.false_ne_true, releaseTo]
    simp only [released, KeyRec.toUp, hreleasing]
  · rw [hstep, stepKey_stuck hstuck]
    refine ⟨fun hraw => by rw [hraw, if_pos rfl], fun hraw => ?_⟩
    rw [hraw, if_neg Bool.false_ne_true]
    rfl

/-! ## PRESS and RELEASE (R23) -/

theorem pressTo_crosses (su : ScanSetup) (delay n : Nat) (k : KeyRec) :
    ((∃ fl, (pressTo su delay n k).2 = some (.press, fl)) ↔ (pressTo su delay n k).1.state.held = true) ∧
      ¬∃ fl, (pressTo su delay n k).2 = some (.release, fl) := by
  unfold pressTo
  split <;> simp [KeyState.held]

theorem releaseTo_crosses (su : ScanSetup) (n : Nat) (k : KeyRec) :
    ((∃ fl, (releaseTo su n k).2 = some (.release, fl)) ↔ (releaseTo su n k).1.state.held = false) ∧
      ¬∃ fl, (releaseTo su n k).2 = some (.press, fl) := by
  unfold releaseTo
  split <;> simp [KeyState.held, KeyRec.toUp]

theorem holdStep_crosses (su : ScanSetup) (interval : Nat) {k : KeyRec} (h : k.state = .down) :
    (holdStep su interval k).1.state.held = true ∧ (¬∃ fl, (holdStep su interval k).2 = some (.press, fl)) ∧
      ¬∃ fl, (holdStep su interval k).2 = some (.release, fl) := by
  unfold holdStep
  simp only
  split
  · simp [KeyState.held]
  · split
    · simp [KeyState.held, h]
    · split <;> simp [KeyState.held, h]

/-- A step emits PRESS where it takes a key from not held to held, and RELEASE where it takes it from held to not held. -/
theorem stepKey_crosses (su : ScanSetup) (delay interval : Nat) (raw suspect : Bool) (k : KeyRec) :
    ((∃ fl, (stepKey su delay interval raw suspect k).2 = some (.press, fl)) ↔
        k.state.held = false ∧ (stepKey su delay interval raw suspect k).1.state.held = true) ∧
      ((∃ fl, (stepKey su delay interval raw suspect k).2 = some (.release, fl)) ↔
        k.state.held = true ∧ (stepKey su delay interval raw suspect k).1.state.held = false) := by
  have hpress := fun n => pressTo_crosses su delay n k
  have hrelease := fun n => releaseTo_crosses su n k
  cases hk : k.state with
  | up =>
    rw [stepKey_up hk]
    cases suspect with
    | true => simp [KeyState.held]
    | false =>
      cases raw with
      | true => simpa [KeyState.held] using hpress 1
      | false => simp [KeyState.held, hk]
  | pressing =>
    rw [stepKey_pressing hk]
    cases suspect with
    | true => simp [KeyState.held]
    | false =>
      cases raw with
      | true => simpa [KeyState.held] using hpress (k.count + 1)
      | false => simp [KeyState.held]
  | suspect =>
    rw [stepKey_suspect hk]
    cases suspect with
    | true => simp [KeyState.held, hk]
    | false =>
      cases raw with
      | true => simpa [KeyState.held] using hpress 1
      | false => simp [KeyState.held]
  | down =>
    rw [stepKey_down hk]
    cases raw with
    | true =>
      obtain ⟨hheld, hp, hr⟩ := holdStep_crosses su interval hk
      have hk' : KeyState.down.held = true := rfl
      simp only [if_true, hheld, hp, hr, hk', Bool.true_eq_false, false_and, and_false, and_self]
    | false => simpa [KeyState.held, and_comm] using hrelease 1
  | releasing =>
    rw [stepKey_releasing hk]
    cases raw with
    | true => simp [KeyState.held]
    | false => simpa [KeyState.held, and_comm] using hrelease (k.count + 1)
  | stuck =>
    rw [stepKey_stuck hk]
    cases raw with
    | true => simp [KeyState.held, hk]
    | false =>
      by_cases hn : su.nr ≤ k.count + 1
      · simp [hn, KeyState.held, KeyRec.toUp]
      · simp [hn, KeyState.held, hk]

/-- Settles O10: the crossings of a step, and the halt of a key by its definition. -/
theorem pressAndReleasePair : Obligations.PressAndReleasePair :=
  fun _ _ => ⟨stepKey_crosses _ _ _ _ _ _, rfl, rfl⟩

/-! ## Transitions, numbered and in key order (R21, R22, R24, R42) -/

theorem numberFrom_length (n frame : Word16) (es : List Emission) : (numberFrom n frame es).length = es.length := by
  induction es generalizing n with
  | nil => rfl
  | cons e es ih => rw [numberFrom, List.length_cons, ih, List.length_cons]

/-- The transition at a place: numbered by the place, all else from its emission. -/
theorem numberFrom_getElem (n frame : Word16) (es : List Emission) (i : Nat) (h : i < (numberFrom n frame es).length) :
    (numberFrom n frame es)[i] =
      let e := es[i]'(numberFrom_length n frame es ▸ h)
      { number := n + BitVec.ofNat 16 (i + 1), frame, key := e.key, group := e.group, kind := e.kind, flags := e.flags } := by
  induction es generalizing n i with
  | nil => cases h
  | cons e es ih =>
    cases i with
    | zero => rfl
    | succ i =>
      simp only [numberFrom, List.getElem_cons_succ, ih]
      have hsum : n + 1 + BitVec.ofNat 16 (i + 1) = n + BitVec.ofNat 16 (i + 1 + 1) := by
        rw [Nat.add_comm (i + 1) 1, BitVec.ofNat_add (x := 1), ← BitVec.add_assoc]
        rfl
      rw [hsum]

theorem mem_numberFrom {n frame : Word16} {es : List Emission} {x : Transition} (h : x ∈ numberFrom n frame es) :
    x.frame = frame ∧ ({ key := x.key, group := x.group, kind := x.kind, flags := x.flags } : Emission) ∈ es := by
  obtain ⟨i, hi, rfl⟩ := List.mem_iff_getElem.mp h
  rw [numberFrom_getElem]
  exact ⟨rfl, List.getElem_mem _⟩

theorem mem_numberFrom_of_mem {n frame : Word16} {es : List Emission} {e : Emission} (h : e ∈ es) :
    ∃ x ∈ numberFrom n frame es, x.key = e.key ∧ x.group = e.group ∧ x.kind = e.kind ∧ x.flags = e.flags := by
  obtain ⟨i, hi, rfl⟩ := List.mem_iff_getElem.mp h
  have hi' : i < (numberFrom n frame es).length := by rwa [numberFrom_length]
  refine ⟨_, List.getElem_mem hi', ?_⟩
  rw [numberFrom_getElem]
  exact ⟨rfl, rfl, rfl, rfl⟩

theorem numberFrom_pairwise {n frame : Word16} {es : List Emission} (h : es.Pairwise fun a b => a.key.val < b.key.val) :
    (numberFrom n frame es).Pairwise fun a b => a.key.val < b.key.val := by
  induction es generalizing n with
  | nil => exact List.Pairwise.nil
  | cons e es ih =>
    rw [List.pairwise_cons] at h
    rw [numberFrom, List.pairwise_cons]
    exact ⟨fun x hx => h.1 _ (mem_numberFrom hx).2, ih h.2⟩

/-- What a sweep emits, in key order. -/
def swept (f : Key → KeyRec × Emitted) (s : State) : List Emission :=
  (List.finRange 128).filterMap fun k =>
    (f k).2.map fun e => { key := k, group := s.keys.recs[k].group, kind := e.1, flags := e.2 : Emission }

theorem mem_swept {f : Key → KeyRec × Emitted} {s : State} {e : Emission} :
    e ∈ swept f s ↔ (f e.key).2 = some (e.kind, e.flags) ∧ e.group = s.keys.recs[e.key].group := by
  obtain ⟨key, group, kind, flags⟩ := e
  simp only [swept, List.mem_filterMap, List.mem_finRange, true_and, Option.map_eq_some_iff, Emission.mk.injEq]
  constructor
  · rintro ⟨k, ⟨kind', flags'⟩, he, rfl, rfl, rfl, rfl⟩
    exact ⟨he, rfl⟩
  · rintro ⟨he, hg⟩
    exact ⟨key, (kind, flags), he, rfl, hg.symm, rfl, rfl⟩

theorem swept_pairwise (f : Key → KeyRec × Emitted) (s : State) : (swept f s).Pairwise fun a b => a.key.val < b.key.val := by
  refine List.Pairwise.filterMap _ ?_ (List.pairwise_lt_finRange 128)
  intro k k' hk e he e' he'
  obtain ⟨_, _, rfl⟩ := Option.map_eq_some_iff.mp he
  obtain ⟨_, _, rfl⟩ := Option.map_eq_some_iff.mp he'
  exact hk

theorem swept_length_le (f : Key → KeyRec × Emitted) (s : State) : (swept f s).length ≤ 128 :=
  (List.length_filterMap_le _ _).trans_eq List.length_finRange

theorem sweep_waiting (f : Key → KeyRec × Emitted) (s : State) :
    (sweep f s).disp.waiting = s.disp.waiting ++ numberFrom s.keys.transition s.scan.frameNumber (swept f s) := by
  simp only [sweep, emit, swept]

theorem sweep_transition (f : Key → KeyRec × Emitted) (s : State) :
    (sweep f s).keys.transition = s.keys.transition + BitVec.ofNat 16 (swept f s).length := by
  simp only [sweep, emit, swept]

theorem sweep_eq (f : Key → KeyRec × Emitted) (s : State) :
    sweep f s = { s with keys := (sweep f s).keys, disp := { s.disp with waiting := (sweep f s).disp.waiting } } := by
  simp only [sweep, emit]

/-- What a sweep hands to the Dispatcher: one transition for each emission, in key order, numbered from the counter (R21, R22, R24). -/
theorem sweep_emits (f : Key → KeyRec × Emitted) (s : State) :
    ∃ new : List Transition,
      (sweep f s).disp.waiting = s.disp.waiting ++ new ∧
      new.Pairwise (fun a b => a.key.val < b.key.val) ∧
      (∀ (k : Key) (kind : Kind) (fl : Flags), (f k).2 = some (kind, fl) ↔ ∃ x ∈ new, x.key = k ∧ x.kind = kind ∧ x.flags = fl) ∧
      (∀ x ∈ new, x.group = s.keys.recs[x.key].group ∧ x.frame = s.scan.frameNumber) ∧
      (∀ (i : Nat) (h : i < new.length), new[i].number = s.keys.transition + BitVec.ofNat 16 (i + 1)) ∧
      (sweep f s).keys.transition = s.keys.transition + BitVec.ofNat 16 new.length := by
  refine ⟨_, sweep_waiting f s, numberFrom_pairwise (swept_pairwise f s), fun k kind fl => ⟨fun h => ?_, ?_⟩, fun x hx => ?_, fun i h => ?_, ?_⟩
  · have hmem : ({ key := k, group := s.keys.recs[k].group, kind := kind, flags := fl } : Emission) ∈ swept f s := mem_swept.mpr ⟨h, rfl⟩
    obtain ⟨x, hx, hk, _, hkind, hfl⟩ := mem_numberFrom_of_mem hmem
    exact ⟨x, hx, hk, hkind, hfl⟩
  · rintro ⟨x, hx, rfl, rfl, rfl⟩
    exact (mem_swept.mp (mem_numberFrom hx).2).1
  · obtain ⟨hf, he⟩ := mem_numberFrom hx
    exact ⟨(mem_swept.mp he).2, hf⟩
  · rw [numberFrom_getElem]
  · rw [sweep_transition, numberFrom_length]

/-- Settles O9: the image is a sweep of the per-key step. -/
theorem imageEmitsNumberedTransitions : Obligations.ImageEmitsNumberedTransitions :=
  fun s => ⟨sweep_eq _ s, sweep_recs _ s, sweep_emits _ s⟩

theorem haltKey_emits {k : KeyRec} {kind : Kind} {fl : Flags} :
    (haltKey k).2 = some (kind, fl) ↔
      k.state.held = true ∧ kind = .release ∧ fl = { remapped := false, halted := true, wasStuck := k.state == .stuck } := by
  unfold haltKey
  split
  · rename_i h
    simp only [h, Option.some.injEq, Prod.mk.injEq, true_and, eq_comm (a := Kind.release), Flags.none, eq_comm (b := fl)]
  · rename_i h
    simp only [h, reduceCtorEq, false_and]

/-- Settles O11: the halt is a sweep of the halt of a key, which emits for held keys alone. -/
theorem haltReleasesHeldKeys : Obligations.HaltReleasesHeldKeys := by
  intro s
  obtain ⟨new, hw, hpair, hmem, hgroup, hnumber, htrans⟩ := sweep_emits (fun k => haltKey s.keys.recs[k]) s
  refine ⟨sweep_eq _ s, takeHalt_recs s, new, hw, hpair, fun k => ⟨fun hheld => ?_, ?_⟩, fun x hx => ?_, hnumber, htrans⟩
  · obtain ⟨x, hx, hk, _⟩ := (hmem k _ _).mp (haltKey_emits.mpr ⟨hheld, rfl, rfl⟩)
    exact ⟨x, hx, hk⟩
  · rintro ⟨x, hx, rfl⟩
    exact (haltKey_emits.mp ((hmem _ _ _).mpr ⟨x, hx, rfl, rfl, rfl⟩)).1
  · obtain ⟨_, hkind, hfl⟩ := haltKey_emits.mp ((hmem _ _ _).mpr ⟨x, hx, rfl, rfl, rfl⟩)
    exact ⟨hkind, (hgroup x hx).1, (hgroup x hx).2, hfl⟩

/-! ## One MAP KEYS entry (R39, R40) -/

section RemapKey

variable {s : State} {k : Key} {g : Option Group}

theorem remapKey_same (h : s.keys.recs[k].group = g) : remapKey s (k, g) = s := by
  simp only [remapKey, h, if_true]

theorem remapKey_not_held (h : s.keys.recs[k].group ≠ g) (hh : s.keys.recs[k].state.held = false) :
    remapKey s (k, g) = { s with keys := { s.keys with recs := s.keys.recs.set k.val { s.keys.recs[k] with group := g } } } := by
  simp only [remapKey, h, hh, if_false, Bool.false_eq_true]

theorem remapKey_held (h : s.keys.recs[k].group ≠ g) (hh : s.keys.recs[k].state.held = true) :
    remapKey s (k, g) =
      { s with
        keys := {
          recs := s.keys.recs.set k.val { state := .pressing, count := 0, countdown := 0, stuckCount := 0, group := g }
          transition := s.keys.transition + 1 }
        disp := { s.disp with
          waiting := s.disp.waiting ++ [{
            number := s.keys.transition + 1, frame := s.scan.frameNumber, key := k, group := s.keys.recs[k].group, kind := .release
            flags := { remapped := true, halted := false, wasStuck := s.keys.recs[k].state == .stuck } }] } } := by
  simp only [remapKey, h, hh, if_false, if_true]
  rfl

end RemapKey

/-- Settles O12: the three cases of an entry. -/
theorem mapKeysEntry : Obligations.MapKeysEntry :=
  fun _ _ _ => ⟨remapKey_same, remapKey_not_held, remapKey_held⟩

end Sys2Proof.Machine

/-! ## Every step keeps the ranges -/

namespace Sys2Proof.Machine

/-! ### Link Units -/

theorem Link.inRange_of_fewer {l l' : Link} (h : l.inRange) (hp : l'.places ≤ l.places) (hr : l'.resend.length ≤ l.resend.length)
    (ht : l'.retry ≤ l.retry) (hn : l'.replyRun ≤ l.replyRun) (ho : l'.rto = l.rto) : l'.inRange := by
  obtain ⟨h1, h2, h3, h4, h5, h6⟩ := h
  exact ⟨hp.trans h1, hr.trans h2, ht.trans_lt h3, hn.trans h4, ho ▸ h5, ho ▸ h6⟩

theorem newRun_le (run : Nat) (x : NewFrame) (notice report : Bool) : newRun run x notice report ≤ Config.replyRun := by
  unfold newRun
  split
  · split
    · exact Nat.min_le_left _ _
    · exact Nat.zero_le _
  · exact Nat.zero_le _
  · exact Nat.zero_le _

theorem Link.inRange_sendNew {l : Link} {body : Body} (h : l.inRange) (hr : l.resend.length < Config.resendCapacity) :
    (l.sendNew body).inRange := by
  obtain ⟨h1, _, h3, h4, h5, h6⟩ := h
  refine ⟨h1, ?_, h3, h4, h5, h6⟩
  show (l.resend ++ [_]).length ≤ _
  rw [List.length_append, List.length_singleton]
  exact hr

theorem Link.inRange_choice {n f : Word16} {l : Link} {d : Delivery} {x : Link × Delivery} (h : l.inRange)
    (hc : choice n f l d = some x) : x.1.inRange := by
  obtain ⟨i, fr, _, _, rfl⟩ | ⟨st, _, rfl⟩ | ⟨_, rfl⟩ | ⟨_, hlen, hnew⟩ | ⟨_, rfl⟩ := choice_cases hc
  · exact h
  · exact h
  · exact h
  · obtain ⟨r, rest, _, hr, rfl⟩ | ⟨_, rfl⟩ | ⟨_, rfl⟩ := hnew
    · obtain ⟨h1, h2, h3, _, h5, h6⟩ := h
      refine Link.inRange_sendNew ⟨?_, h2, h3, newRun_le l.replyRun .reply _ _, h5, h6⟩ hlen
      rw [Link.places, hr, List.length_cons] at h1
      exact Nat.le_trans (Nat.add_le_add_right (Nat.le_succ _) _) h1
    · exact Link.inRange_sendNew (Link.inRange_of_fewer h (l' := { l with replyRun := 0 }) le_rfl le_rfl le_rfl (Nat.zero_le _) rfl) hlen
    · exact Link.inRange_sendNew (Link.inRange_of_fewer h (l' := { l with replyRun := 0 }) le_rfl le_rfl le_rfl (Nat.zero_le _) rfl) hlen
  · exact h

theorem Link.inRange_served {l : Link} (h : l.inRange) (n f : Word16) (d : Delivery) : (l.served n f d).inRange := by
  unfold Link.served
  split
  · cases hc : choice n f l d with
    | none => exact h
    | some x => exact Link.inRange_choice h hc
  · exact h

theorem Link.inRange_oweAck {l : Link} (h : l.inRange) : l.oweAck.inRange := by
  unfold Link.oweAck
  split <;> exact h

theorem linkKept_inRange : LinkKeptByEvent fun _ l => l.inRange where
  reset _ := by unfold Link.inRange; decide
  choose h _ hc := Link.inRange_choice h hc
  reply {p l} r h hh := by
    refine Link.inRange_of_fewer h ?_ le_rfl le_rfl le_rfl rfl
    simp only [Link.places, List.length_append, List.length_singleton]
    omega
  release h := Link.inRange_of_fewer h (Nat.add_le_add_left (Nat.zero_le _) _) le_rfl le_rfl le_rfl rfl
  readAck {p l} a h := by
    unfold Link.readAck
    simp only
    split
    · exact h
    · exact Link.inRange_of_fewer h le_rfl (by rw [List.length_drop]; exact Nat.sub_le _ _) (Nat.zero_le _) le_rfl rfl
  oweAck h := Link.inRange_oweAck h
  acceptOpen {p l} seq h := by
    obtain ⟨_, _, _, _, h5, h6⟩ := h
    exact Link.inRange_oweAck ⟨by show 1 ≤ 4; decide, Nat.zero_le _, by show 0 < 4; decide, Nat.zero_le _, h5, h6⟩
  refuseOpen st h := Link.inRange_of_fewer h (Nat.add_le_add_left (Nat.sub_le _ _) _) le_rfl le_rfl le_rfl rfl
  rto {p l n} h h1 h2 := by
    obtain ⟨a, b, c, d, _, _⟩ := h
    refine ⟨a, b, c, d, ?_, ?_⟩ <;> simp only <;> omega
  noSession h := h
  accept {p l} seq h hp := by
    obtain ⟨_, h2, h3, h4, h5, h6⟩ := h
    exact Link.inRange_oweAck ⟨hp, h2, h3, h4, h5, h6⟩
  giveUp h := Link.inRange_of_fewer h (Nat.zero_le _) (Nat.zero_le _) (Nat.zero_le _) (Nat.zero_le _) rfl
  retry {p l} n f d h _ hn := by
    obtain ⟨h1, h2, _, h4, h5, h6⟩ := h
    have hb : { l with retransmit := l.retransmit.stop, retry := l.retry + 1, burst := some 0 : Link }.inRange := ⟨h1, h2, hn, h4, h5, h6⟩
    exact Link.inRange_served hb n f d
  holdoff h := h
  frameEnd {p l} n f d h _ := by
    refine Link.inRange_served ?_ n f d
    unfold Link.endFrame
    split
    · split <;> exact h
    · exact h

/-! ### Delivery Units -/

/-- What of the Delivery Units every event of the table keeps. -/
structure DeliveryKept (D : Delivery → Prop) : Prop where
  empty : D Delivery.empty
  choose : ∀ {n f : Word16} {l : Link} {d : Delivery} {x : Link × Delivery}, D d → choice n f l d = some x → D x.2
  record : ∀ {d : Delivery} (r : EventRec), D d → D (d.takeRecord r)
  changed : ∀ {d : Delivery} (g : Group), D d → D (d.takeChanged g)
  arm : ∀ {d : Delivery} (g : Group), D d → D (d.takeArm g)
  join : ∀ {d : Delivery} (g : Group) (m : Mode), D d → D (d.takeJoin g m)
  leave : ∀ {d : Delivery} (g : Group), D d → D (d.takeLeave g)
  dissolve : ∀ {d : Delivery} (g : Group), D d → D (d.takeDissolve g)
  scanState : ∀ {d : Delivery} (st : ScanState), D d → D (d.takeScanState st)
  grant : ∀ {d : Delivery} (n : Nat), D d → D (d.takeGrant n)

section Deliveries

variable {D : Delivery → Prop} {s : State}

theorem forall_updDelivery {p : Port} {f : Delivery → Delivery} (h : ∀ q, D (s.delivery.get q)) (hf : D (f (s.delivery.get p))) (q : Port) :
    D ((updDelivery p f s).delivery.get q) := by
  by_cases hq : q = p
  · subst hq
    rw [updDelivery_get_same]
    exact hf
  · rw [updDelivery_get_ne hq]
    exact h q

theorem forall_post {p : Port} {f : Delivery → Delivery} (h : ∀ q, D (s.delivery.get q)) (hf : D (f (s.delivery.get p))) (q : Port) :
    D ((post p f s).delivery.get q) := by
  rcases post_spec p f s with ⟨_, e⟩ | ⟨_, e⟩ <;> rw [e]
  · exact forall_updDelivery h hf q
  · exact h q

theorem forall_delivery_foldl {α : Type} {f : State → α → State}
    (hf : ∀ (u : State) (a : α), (∀ q, D (u.delivery.get q)) → ∀ q, D ((f u a).delivery.get q)) (as : List α)
    (h : ∀ q, D (s.delivery.get q)) (q : Port) : D ((as.foldl f s).delivery.get q) := by
  induction as generalizing s with
  | nil => exact h q
  | cons a as ih => exact ih (hf s a h)

end Deliveries

namespace DeliveryKept

variable {D : Delivery → Prop} (hD : DeliveryKept D) {s : State}
include hD

theorem postScanState (h : ∀ q, D (s.delivery.get q)) (q : Port) : D ((postScanState s).delivery.get q) := by
  unfold Machine.postScanState
  split
  · exact forall_post h (hD.scanState _ (h _)) q
  · exact h q

theorem chooseFrame {p : Port} {s' : State} (h : ∀ q, D (s.delivery.get q)) (hc : chooseFrame p s = some s') (q : Port) :
    D (s'.delivery.get q) := by
  obtain ⟨x, hx, rfl⟩ := Option.map_eq_some_iff.mp hc
  by_cases hq : q = p
  · subst hq
    rw [setPort_delivery_same]
    exact hD.choose (h q) hx
  · rw [setPort_delivery_ne hq]
    exact h q

theorem raceChoice (p : Port) (h : ∀ q, D (s.delivery.get q)) (q : Port) : D ((raceChoice p s).delivery.get q) := by
  unfold Machine.raceChoice
  split
  · split
    · rename_i hc
      split
      · exact hD.chooseFrame h hc q
      · exact h q
    · exact h q
  · exact h q

theorem enterActive (h : ∀ q, D (s.delivery.get q)) : ∀ q, D ((enterActive s).delivery.get q) := hD.postScanState h

theorem enterWatch (h : ∀ q, D (s.delivery.get q)) : ∀ q, D ((enterWatch s).delivery.get q) := hD.postScanState h

theorem enterHalted (h : ∀ q, D (s.delivery.get q)) : ∀ q, D ((enterHalted s).delivery.get q) := hD.postScanState h

theorem teardown (p : Port) (st : SessionState) (h : ∀ q, D (s.delivery.get q)) (q : Port) : D ((teardown p st s).delivery.get q) := by
  by_cases hq : q = p
  · subst hq
    rw [teardown_delivery_same]
    exact hD.empty
  · rw [teardown_delivery_ne hq]
    exact h q

theorem carryOut (r : Request) (a : Ask) (h : ∀ q, D (s.delivery.get q)) (q : Port) : D ((carryOut r a s).delivery.get q) := by
  cases a with
  | close =>
    refine hD.teardown (s := replyTo r .ok .none s) r.port .closing ?_ q
    rwa [replyTo_delivery]
  | grant n =>
    simp only [Machine.carryOut, takeGrant, replyTo_delivery]
    exact hD.raceChoice _ (forall_updDelivery h (hD.grant n (h _))) q
  | join g m =>
    simp only [Machine.carryOut, takeJoin]
    split
    · rw [replyTo_delivery]
      exact h q
    · rw [replyTo_delivery]
      exact forall_post (s := setGroup g _ s) h (hD.join g m (h _)) q
  | leave g =>
    simp only [Machine.carryOut, takeLeave]
    split
    · rw [replyTo_delivery, removeMember_delivery]
      exact forall_post h (hD.leave g (h _)) q
    · rw [replyTo_delivery]
      exact h q
  | snapshot g =>
    simp only [Machine.carryOut, takeSnapshot]
    split
    · rw [setSnapshot_delivery]
      unfold armStep
      split
      · exact forall_post h (hD.arm g (h _)) q
      · exact h q
    · rw [replyTo_delivery]
      exact h q
  | lamps es =>
    simp only [Machine.carryOut, takeLamps]
    split
    · rw [replyTo_delivery]
      exact h q
    · split <;> simpa using h q
  | status => simpa [Machine.carryOut, takeStatus] using h q
  | mapKeys es => simpa [Machine.carryOut, takeMapKeys] using h q
  | mapLamps es => simpa [Machine.carryOut, takeMapLamps] using h q
  | groupSetup g delay interval => simpa [Machine.carryOut, takeGroupSetup] using h q
  | dissolve g =>
    simp only [Machine.carryOut, takeDissolve, replyTo_delivery]
    refine hD.raceChoice _ (fun q => ?_) q
    have hfold := forall_delivery_foldl (s := setGroup g { s.groups[g] with members := PerPort.all none } s)
      (f := postDissolve g s.groups[g].members) (D := D) (fun u p hu q => ?_) [Port.p0, Port.p1, Port.p2] h q
    · split
      · exact hfold
      · exact hfold
    · unfold postDissolve
      split
      · exact forall_post hu (hD.dissolve g (hu _)) q
      · exact hu q
  | scanSetup su =>
    simp only [Machine.carryOut, takeScanSetup]
    split <;> simpa using h q
  | scanControl op =>
    have hreply : ∀ {u : State} (st : Status), (∀ q, D (u.delivery.get q)) → D ((scanReply r st u).delivery.get q) := by
      intro u st hu
      rw [scanReply, replyTo_delivery]
      exact hu q
    cases op with
    | start =>
      simp only [Machine.carryOut, takeScanControl, takeScanStart]
      split
      · exact hreply _ h
      · split
        · exact hreply _ h
        · exact hreply _ (hD.raceChoice _ (hD.enterActive h))
        · exact hreply _ (hD.raceChoice _ (hD.enterActive h))
    | halt =>
      simp only [Machine.carryOut, takeScanControl, takeScanHalt]
      split
      · exact hreply _ h
      · split
        · exact hreply _ h
        · exact hreply _ (hD.raceChoice _ (hD.enterHalted h))
        · exact h q
    | watch =>
      simp only [Machine.carryOut, takeScanControl, takeScanWatch]
      split
      · exact hreply _ h
      · split
        · exact hreply _ h
        · exact hreply _ h
        · split
          · exact hreply _ (hD.raceChoice _ (hD.enterWatch h))
          · exact hreply _ h
  | reset => simpa [Machine.carryOut, takeReset] using h q

theorem afterImage (h : ∀ q, D (s.delivery.get q)) (q : Port) : D ((afterImage s).delivery.get q) := by
  simp only [Machine.afterImage]
  split
  · exact h q
  · split
    · exact hD.enterWatch (s := updateIdle s) h q
    · exact h q

theorem scannerEvent {s' : State} (h : ∀ q, D (s.delivery.get q)) (he : scannerEvent s = some s') (q : Port) : D (s'.delivery.get q) := by
  obtain ⟨_, ⟨_, rfl⟩ | ⟨_, rfl⟩ | ⟨_, rfl⟩⟩ := scannerEvent_cases he
  · exact hD.afterImage (s := takeImage s) (by simpa using h) q
  · simpa using h q
  · unfold endHalt
    simp only
    split
    · rw [produce_delivery]
      exact hD.raceChoice _ (hD.enterHalted h) q
    · exact hD.enterHalted h q

theorem endForOpen (p : Port) (h : ∀ q, D (s.delivery.get q)) (q : Port) : D ((endForOpen p s).delivery.get q) := by
  unfold Machine.endForOpen
  split
  · exact hD.teardown p _ h q
  · exact h q

theorem takeOpen (p : Port) (seq : Byte) (payload : List Byte) (h : ∀ q, D (s.delivery.get q)) (q : Port) :
    D ((takeOpen p seq payload s).delivery.get q) := by
  have hend := hD.endForOpen p h q
  unfold Machine.takeOpen
  split
  · rw [fullReset_delivery, PerPort.get_all]
    exact hD.empty
  · simp only
    split
    · exact hend
    · split
      · exact hend
      · split
        · exact hend
        · rw [beginSession, produce_delivery]
          exact hend

theorem route (t : Transition) (h : ∀ q, D (s.delivery.get q)) (q : Port) : D ((route t s).delivery.get q) := by
  unfold Machine.route
  split
  · rename_i g _
    refine forall_delivery_foldl (fun u p hu q => ?_) _ h q
    unfold routeTo
    split
    · rename_i m _
      refine forall_post hu ?_ q
      unfold memberPost
      split
      · exact hD.record _ (hu p)
      · split
        · exact hu p
        · exact hD.changed g (hu p)
    · exact hu q
  · exact h q

theorem keptByStep : KeptByStep fun s => ∀ p, D (s.delivery.get p) :=
  KeptByEvent.keptByStep (hf := fun _ _ h => h)
    { races := fun _ h => h
      choose := fun {s p x} h hi hc => by
        refine hD.chooseFrame h (p := p) ?_
        rw [Machine.chooseFrame, hc]
        rfl
      produce := fun p r h q => by rw [produce_delivery]; exact h q
      scanner := fun h he => hD.scannerEvent h he
      unhand := fun _ h => h
      owner := fun h _ _ _ => hD.carryOut _ _ h
      unqueue := fun h _ => h
      fresh := fun h _ _ _ _ _ _ => hD.carryOut _ _ h
      hand := fun h _ _ => h
      reset := fun _ p => by rw [fullReset_delivery, PerPort.get_all]; exact hD.empty
      ackByte := fun p a h q => by
        unfold takeAckByte
        simp only
        split <;> exact h q
      oweAck := fun _ h => h
      opening := fun p seq payload h => hD.takeOpen p seq payload h
      noSession := fun _ h => h
      accept := fun _ _ h _ _ => h
      pending := fun _ h => h
      pins := fun _ h => h
      snapshotRead := fun _ h => h
      slotEnd := fun _ h _ p => by rw [(endSlot_keeps _ _ _).2.2.2.1]; exact h p
      completion := fun h _ => h
      watchSample := fun sense h _ q => by
        unfold takeWatchSample
        split
        · exact hD.enterActive h q
        · exact h q
      litDemand := fun {s n} h _ q => by
        unfold takeLitDemand
        split
        · exact hD.enterActive (s := { s with scan := { s.scan with litDemands := n } }) h q
        all_goals exact h q
      routing := fun {s} h q => by
        unfold routeNext
        split
        · exact h q
        · rename_i t rest _
          exact hD.route t (s := { s with disp := { s.disp with waiting := rest } }) h q
      lastRetry := fun {s} p h q => by
        unfold retryLimitReached
        split
        · rw [fullReset_delivery, PerPort.get_all]
          exact hD.empty
        · split
          · exact h q
          · exact hD.teardown (s := updLink p Link.giveUp s) p _ h q
          · exact h q
      retry := fun {s} p h _ _ q => by
        unfold serve
        split
        · cases hc : Machine.chooseFrame p _ with
          | none => exact h q
          | some s' => exact hD.chooseFrame (s := updLink p _ s) h hc q
        · exact h q
      holdoff := fun _ h => h
      frameEnd := fun {s} p h _ q => by
        unfold serve
        split
        · cases hc : Machine.chooseFrame p _ with
          | none => exact h q
          | some s' => exact hD.chooseFrame (s := updLink p _ s) h hc q
        · exact h q }

end DeliveryKept

theorem newFrame?_eq_notice {run : Nat} {reply notice report : Bool} (h : newFrame? run reply notice report = some .notice) : notice = true := by
  unfold newFrame? at h
  cases notice with
  | true => rfl
  | false => split at h <;> cases reply <;> cases report <;> cases h

theorem newFrame?_eq_report {run : Nat} {reply notice report : Bool} (h : newFrame? run reply notice report = some .report) : report = true := by
  unfold newFrame? at h
  cases report with
  | true => rfl
  | false => split at h <;> cases reply <;> cases notice <;> cases h

theorem Delivery.reportEligible_iff {d : Delivery} : d.reportEligible = true ↔ 1 ≤ d.credits ∧ d.queue ≠ [] := by
  simp only [Delivery.reportEligible, Bool.and_eq_true, decide_eq_true_eq, Bool.not_eq_true', List.isEmpty_eq_false_iff]

theorem Delivery.reportSize_pos {d : Delivery} (h : d.reportEligible = true) : 0 < d.reportSize := by
  obtain ⟨hc, hq⟩ := Delivery.reportEligible_iff.mp h
  have hl := List.length_pos_of_ne_nil hq
  simp only [Delivery.reportSize, Config.reportRecords]
  omega

theorem Delivery.inRange_afterReport {d : Delivery} (h : d.inRange) (he : d.reportEligible = true) (n f : Word16) :
    (d.afterReport n f).inRange := by
  obtain ⟨hq, hl, hc, hfull⟩ := h
  have hpos := Delivery.reportSize_pos he
  have hle : d.reportSize ≤ d.queue.length := (Nat.min_le_right _ _).trans (Nat.min_le_right _ _)
  refine ⟨?_, Nat.zero_le _, (Nat.sub_le _ _).trans hc, fun e => absurd rfl e⟩
  simp only [Delivery.afterReport, List.length_append, List.length_drop]
  split
  · rw [List.length_nil]
    omega
  · rw [List.length_singleton]
    omega

theorem Delivery.inRange_takeRecord {d : Delivery} (h : d.inRange) (r : EventRec) : (d.takeRecord r).inRange := by
  obtain ⟨hq, hl, hc, hfull⟩ := h
  unfold Delivery.takeRecord
  split
  · rename_i hlt
    refine ⟨?_, hl, hc, fun e => absurd (hfull e) hlt.ne⟩
    rw [List.length_append, List.length_singleton]
    exact hlt
  · rename_i hge
    exact ⟨hq, Nat.min_le_left _ _, hc, fun _ => Nat.le_antisymm hq (Nat.le_of_not_lt hge)⟩

theorem deliveryKept_inRange : DeliveryKept Delivery.inRange where
  empty := by
    refine ⟨Nat.zero_le _, Nat.zero_le _, Nat.zero_le _, fun e => absurd rfl e⟩
  choose {n f l d x} h hc := by
    obtain ⟨i, fr, _, _, rfl⟩ | ⟨st, _, rfl⟩ | ⟨_, rfl⟩ | ⟨_, hlen, hnew⟩ | ⟨_, rfl⟩ := choice_cases hc
    · exact h
    · exact h
    · exact h
    · obtain ⟨r, rest, _, hr, rfl⟩ | ⟨_, rfl⟩ | ⟨hn, rfl⟩ := hnew
      · exact h
      · exact h
      · exact Delivery.inRange_afterReport h (newFrame?_eq_report hn) n f
    · exact h
  record r h := Delivery.inRange_takeRecord h r
  changed g h := by
    unfold Delivery.takeChanged
    split <;> exact h
  arm g h := h
  join g m h := by cases m <;> exact h
  leave g h := h
  dissolve g h := h
  scanState st h := h
  grant {d} n h := by
    obtain ⟨hq, hl, hc, hfull⟩ := h
    refine ⟨hq, hl, ?_, hfull⟩
    simp only [Delivery.takeGrant, grantedCredits]
    split
    · exact Nat.zero_le _
    · exact Nat.min_le_left _ _

end Sys2Proof.Machine

/-! ### Setup, keys, groups, what waits for the Dispatcher and for the owners -/

namespace Sys2Proof.Machine

/-- The ranges of what is neither a Delivery Unit's nor a Link Unit's. -/
structure PanelRanges (s : State) : Prop where
  setup : s.scan.setup.inRange = true
  idle : s.scan.idleCount ≤ Config.countCeiling
  keys : ∀ k : Key, s.keys.recs[k].inRange
  groups : ∀ g : Group, s.groups[g].inRange
  waiting : s.disp.waiting.length ≤ 128
  handed : ∀ (p : Port) (h : Handed), s.mgr.handed.get p = some h → h.ask.inRange = true

theorem ranges_iff (s : State) :
    Ranges s ↔ PanelRanges s ∧ (∀ p, (s.delivery.get p).inRange) ∧ ∀ p, (s.link.get p).inRange :=
  ⟨fun ⟨a, b, c, d, e, f, g⟩ => ⟨⟨a, b, c, d, e, g⟩, fun p => (f p).1, fun p => (f p).2⟩,
    fun ⟨⟨a, b, c, d, e, g⟩, f1, f2⟩ => ⟨a, b, c, d, e, fun p => ⟨f1 p, f2 p⟩, g⟩⟩

/-- A state that agrees in what these ranges speak of, with no longer list of transitions and the groups' repeat values kept. -/
theorem PanelRanges.congr {s t : State} (h : PanelRanges s) (hs : t.scan.setup = s.scan.setup)
    (hi : t.scan.idleCount ≤ s.scan.idleCount) (hk : t.keys.recs = s.keys.recs)
    (hg : ∀ g : Group, t.groups[g].delay = s.groups[g].delay ∧ t.groups[g].interval = s.groups[g].interval)
    (hw : t.disp.waiting.length ≤ s.disp.waiting.length) (hh : t.mgr.handed = s.mgr.handed) : PanelRanges t where
  setup := hs ▸ h.setup
  idle := hi.trans h.idle
  keys k := by
    rw [hk]
    exact h.keys k
  groups g := by
    rw [GroupRec.inRange, (hg g).1, (hg g).2]
    exact h.groups g
  waiting := hw.trans h.waiting
  handed := by
    rw [hh]
    exact h.handed

/-- A state that agrees in the parts that these ranges speak of. -/
theorem PanelRanges.of_eq {s t : State} (h : PanelRanges s) (hs : t.scan = s.scan) (hk : t.keys = s.keys) (hg : t.groups = s.groups)
    (hd : t.disp = s.disp) (hm : t.mgr = s.mgr) : PanelRanges t :=
  h.congr (by rw [hs]) (by rw [hs]) (by rw [hk]) (by rw [hg]; exact fun _ => ⟨rfl, rfl⟩) (by rw [hd]) (by rw [hm])

/-- A state that differs in the scanner, setup and idle count in range. -/
theorem PanelRanges.of_scan {s t : State} (h : PanelRanges s) (hs : t.scan.setup.inRange = true) (hi : t.scan.idleCount ≤ Config.countCeiling)
    (hk : t.keys = s.keys) (hg : t.groups = s.groups) (hd : t.disp = s.disp) (hm : t.mgr = s.mgr) : PanelRanges t where
  setup := hs
  idle := hi
  keys := hk ▸ h.keys
  groups := hg ▸ h.groups
  waiting := hd ▸ h.waiting
  handed := hm ▸ h.handed

theorem PanelRanges.replyTo {s : State} (h : PanelRanges s) (r : Request) (st : Status) (data : ReplyData) :
    PanelRanges (replyTo r st data s) := h.of_eq (by simp) (by simp) (by simp) (by simp) (by simp)

theorem PanelRanges.raceChoice {s : State} (h : PanelRanges s) (p : Port) : PanelRanges (raceChoice p s) :=
  h.of_eq (by simp) (by simp) (by simp) (by simp) (by simp)

theorem PanelRanges.enterActive {s : State} (h : PanelRanges s) : PanelRanges (enterActive s) :=
  h.of_scan (by rw [enterActive_scan]; exact h.setup) (by rw [enterActive_scan]; exact Nat.zero_le _) (by simp) (by simp) (by simp) (by simp)

theorem PanelRanges.enterWatch {s : State} (h : PanelRanges s) : PanelRanges (enterWatch s) :=
  h.of_scan (by rw [enterWatch_scan]; exact h.setup) (by rw [enterWatch_scan]; exact h.idle) (by simp) (by simp) (by simp) (by simp)

theorem PanelRanges.enterHalted {s : State} (h : PanelRanges s) : PanelRanges (enterHalted s) :=
  h.of_scan (by rw [enterHalted_scan]; exact h.setup) (by rw [enterHalted_scan]; exact h.idle) (by simp) (by simp) (by simp) (by simp)

/-! The keys. -/

theorem ScanSetup.inRange_iff {su : ScanSetup} :
    su.inRange = true ↔ 1 ≤ su.np ∧ su.np ≤ 15 ∧ 1 ≤ su.nr ∧ su.nr ≤ 15 ∧ su.idleLimit ≤ 255 ∧ su.stuckLimit ≤ 255 := by
  simp only [ScanSetup.inRange, decide_eq_true_eq]

theorem pressTo_inRange {su : ScanSetup} (hsu : su.inRange = true) {delay : Nat} (hd : delay ≤ 255) (n : Nat) {k : KeyRec} (h : k.inRange) :
    (pressTo su delay n k).1.inRange := by
  have hnp := (ScanSetup.inRange_iff.mp hsu).2.1
  obtain ⟨hc, hcd, hst⟩ := h
  unfold pressTo
  split
  · exact ⟨Nat.zero_le _, hd, Nat.zero_le _⟩
  · exact ⟨by simp only; omega, hcd, hst⟩

theorem KeyRec.toUp_inRange (k : KeyRec) : k.toUp.inRange := ⟨Nat.zero_le _, Nat.zero_le _, Nat.zero_le _⟩

theorem releaseTo_inRange {su : ScanSetup} (hsu : su.inRange = true) (n : Nat) {k : KeyRec} (h : k.inRange) :
    (releaseTo su n k).1.inRange := by
  have hnr := (ScanSetup.inRange_iff.mp hsu).2.2.2.1
  obtain ⟨hc, hcd, hst⟩ := h
  unfold releaseTo
  split
  · exact k.toUp_inRange
  · exact ⟨by simp only; omega, hcd, hst⟩

theorem holdStep_inRange (su : ScanSetup) {interval : Nat} (hi : interval ≤ 255) {k : KeyRec} (h : k.inRange) :
    (holdStep su interval k).1.inRange := by
  obtain ⟨hc, hcd, hst⟩ := h
  have hstuck : min Config.countCeiling (k.stuckCount + 1) ≤ Config.countCeiling := Nat.min_le_left _ _
  unfold holdStep
  simp only
  split
  · exact ⟨Nat.zero_le _, hcd, hstuck⟩
  · split
    · exact ⟨hc, hcd, hstuck⟩
    · split
      · exact ⟨hc, hi, hstuck⟩
      · exact ⟨hc, (Nat.sub_le _ _).trans hcd, hstuck⟩

theorem stepKey_inRange {su : ScanSetup} (hsu : su.inRange = true) {delay interval : Nat} (hd : delay ≤ 255) (hi : interval ≤ 255)
    (raw suspect : Bool) {k : KeyRec} (h : k.inRange) : (stepKey su delay interval raw suspect k).1.inRange := by
  have hpress := fun n => pressTo_inRange hsu hd n h
  have hrelease := fun n => releaseTo_inRange hsu n h
  have hnr := (ScanSetup.inRange_iff.mp hsu).2.2.2.1
  have hzero : ∀ st : KeyState, ({ k with state := st, count := 0 } : KeyRec).inRange := fun _ => ⟨Nat.zero_le _, h.2⟩
  cases hk : k.state with
  | up =>
    rw [stepKey_up hk]
    split
    · exact hzero _
    · split
      · exact hpress 1
      · exact h
  | pressing =>
    rw [stepKey_pressing hk]
    split
    · exact hzero _
    · split
      · exact hpress _
      · exact hzero _
  | suspect =>
    rw [stepKey_suspect hk]
    split
    · exact h
    · split
      · exact hpress 1
      · exact hzero _
  | down =>
    rw [stepKey_down hk]
    split
    · exact holdStep_inRange su hi h
    · exact hrelease 1
  | releasing =>
    rw [stepKey_releasing hk]
    split
    · exact hzero _
    · exact hrelease _
  | stuck =>
    rw [stepKey_stuck hk]
    split
    · exact ⟨Nat.zero_le _, h.2⟩
    · split
      · exact k.toUp_inRange
      · exact ⟨by simp only; omega, h.2⟩

theorem PanelRanges.delayOf_le {s : State} (h : PanelRanges s) (g : Option Group) : delayOf s g ≤ 255 := by
  cases g with
  | none => exact Nat.zero_le _
  | some g => exact (h.groups g).1

theorem PanelRanges.intervalOf_le {s : State} (h : PanelRanges s) (g : Option Group) : intervalOf s g ≤ 255 := by
  cases g with
  | none => exact Nat.zero_le _
  | some g => exact (h.groups g).2.2

theorem PanelRanges.sweep {s : State} (h : PanelRanges s) (hw : s.disp.waiting = []) {f : Key → KeyRec × Emitted}
    (hf : ∀ k, (f k).1.inRange) : PanelRanges (Machine.sweep f s) where
  setup := by simpa using h.setup
  idle := by simpa using h.idle
  keys k := by
    rw [sweep_recs]
    exact hf k
  groups := by simpa using h.groups
  waiting := by
    rw [sweep_waiting, hw, List.nil_append, numberFrom_length]
    exact swept_length_le f s
  handed := by simpa using h.handed

theorem PanelRanges.takeImage {s : State} (h : PanelRanges s) (hw : s.disp.waiting = []) : PanelRanges (takeImage s) :=
  h.sweep hw fun k => stepKey_inRange h.setup (h.delayOf_le _) (h.intervalOf_le _) _ _ (h.keys k)

theorem PanelRanges.afterImage {s : State} (h : PanelRanges s) : PanelRanges (afterImage s) := by
  have hidle : PanelRanges (updateIdle s) :=
    h.of_scan h.setup (by simp only [updateIdle]; split; exacts [Nat.min_le_left _ _, Nat.zero_le _]) rfl rfl rfl rfl
  simp only [Machine.afterImage]
  split
  · exact hidle.of_scan hidle.setup hidle.idle rfl rfl rfl rfl
  · split
    · exact hidle.enterWatch
    · exact hidle.of_scan hidle.setup hidle.idle rfl rfl rfl rfl

theorem vector_set_get {α : Type} {n : Nat} (xs : Vector α n) (i j : Fin n) (x : α) :
    (xs.set i.val x)[j] = if j = i then x else xs[j] := by
  by_cases h : j = i
  · subst h
    rw [if_pos rfl]
    exact Vector.getElem_set_self _
  · rw [if_neg h]
    exact Vector.getElem_set_ne _ _ (fun e => h (Fin.ext e.symm))

/-- A MAP KEYS entry hands at most one transition to the Dispatcher, and keeps the ranges but for the length of its list. -/
theorem remapKey_ranges (s : State) (e : Key × Option Group) (h : ∀ k : Key, s.keys.recs[k].inRange) :
    (∀ k : Key, (remapKey s e).keys.recs[k].inRange) ∧ (remapKey s e).disp.waiting.length ≤ s.disp.waiting.length + 1 := by
  obtain ⟨key, g⟩ := e
  by_cases hg : s.keys.recs[key].group = g
  · rw [remapKey_same hg]
    exact ⟨h, Nat.le_succ _⟩
  · cases hh : s.keys.recs[key].state.held with
    | false =>
      rw [remapKey_not_held hg hh]
      refine ⟨fun k => ?_, Nat.le_succ _⟩
      rw [vector_set_get]
      split
      · exact h key
      · exact h k
    | true =>
      rw [remapKey_held hg hh]
      refine ⟨fun k => ?_, by simp⟩
      rw [vector_set_get]
      split
      · exact ⟨Nat.zero_le _, Nat.zero_le _, Nat.zero_le _⟩
      · exact h k

theorem foldl_remapKey_ranges (es : List (Key × Option Group)) (s : State) (h : ∀ k : Key, s.keys.recs[k].inRange) :
    (∀ k : Key, (es.foldl remapKey s).keys.recs[k].inRange) ∧
      (es.foldl remapKey s).disp.waiting.length ≤ s.disp.waiting.length + es.length := by
  induction es generalizing s with
  | nil => exact ⟨h, le_rfl⟩
  | cons e es ih =>
    obtain ⟨h1, h2⟩ := remapKey_ranges s e h
    obtain ⟨h3, h4⟩ := ih (remapKey s e) h1
    refine ⟨h3, h4.trans ?_⟩
    rw [List.length_cons]
    omega

/-! The owners' parts. -/

theorem removeMember_repeat (p : Port) (s : State) (g g' : Group) :
    (removeMember p s g).groups[g'].delay = s.groups[g'].delay ∧ (removeMember p s g).groups[g'].interval = s.groups[g'].interval := by
  rw [removeMember_groups]
  split
  · rename_i e
    rw [e]
    exact ⟨rfl, rfl⟩
  · exact ⟨rfl, rfl⟩

theorem setGroup_repeat {g : Group} {r : GroupRec} {s : State} (hd : r.delay = s.groups[g].delay) (hi : r.interval = s.groups[g].interval)
    (g' : Group) : (setGroup g r s).groups[g'].delay = s.groups[g'].delay ∧ (setGroup g r s).groups[g'].interval = s.groups[g'].interval := by
  rw [setGroup, vector_set_get]
  split
  · rename_i e
    rw [e]
    exact ⟨hd, hi⟩
  · exact ⟨rfl, rfl⟩

theorem PanelRanges.teardown {s : State} (h : PanelRanges s) (p : Port) (st : SessionState) : PanelRanges (teardown p st s) :=
  h.congr (by simp) (by simp) (by simp) (fun g => by rw [teardown_groups]; exact ⟨rfl, rfl⟩) (by simp) (teardown_handed p st s)

theorem PanelRanges.carryOut {s : State} (h : PanelRanges s) (r : Request) {a : Ask} (ha : a.inRange = true)
    (hwait : ∀ es, a = .mapKeys es → s.disp.waiting = []) : PanelRanges (Machine.carryOut r a s) := by
  cases a with
  | close => exact ((h.replyTo r .ok .none).teardown r.port .closing).of_eq rfl rfl rfl rfl rfl
  | grant n =>
    have hpost : PanelRanges (updDelivery r.port (Delivery.takeGrant n) s) := h.of_eq rfl rfl rfl rfl rfl
    exact (hpost.raceChoice r.port).replyTo _ _ _
  | join g m =>
    simp only [Machine.carryOut, takeJoin]
    split
    · exact h.replyTo _ _ _
    · refine PanelRanges.replyTo ?_ _ _ _
      exact h.congr (by simp) (by simp) (by simp) (fun g' => by rw [post_groups]; apply setGroup_repeat <;> rfl) (by simp) (by simp)
  | leave g =>
    simp only [Machine.carryOut, takeLeave]
    split
    · refine PanelRanges.replyTo ?_ _ _ _
      refine h.congr (by simp) (by simp) (by simp) (fun g' => ?_) (by simp) (by simp)
      have hrep := removeMember_repeat r.port (post r.port (Delivery.takeLeave g) s) g g'
      simp only [post_groups] at hrep
      exact hrep
    · exact h.replyTo _ _ _
  | snapshot g =>
    simp only [Machine.carryOut, takeSnapshot]
    split
    · exact h.congr (by simp) (by simp) (by simp) (by simp) (by simp) (by simp)
    · exact h.replyTo _ _ _
  | lamps es =>
    simp only [Machine.carryOut, takeLamps]
    split
    · exact h.replyTo _ _ _
    · split
      · have hl : PanelRanges (Machine.replyTo r .ok .none (es.foldl switchLamp s)) :=
          PanelRanges.replyTo (h.of_eq (by simp) (by simp) (by simp) (by simp) (by simp)) _ _ _
        exact hl.of_scan hl.setup hl.idle rfl rfl rfl rfl
      · exact PanelRanges.replyTo (h.of_eq (by simp) (by simp) (by simp) (by simp) (by simp)) _ _ _
  | status => exact h.replyTo _ _ _
  | mapKeys es =>
    have hw : s.disp.waiting = [] := hwait es rfl
    have hlen : es.length ≤ 32 := (of_decide_eq_true ha).2
    obtain ⟨hkeys, hcount⟩ := foldl_remapKey_ranges es s h.keys
    refine PanelRanges.replyTo ?_ _ _ _
    rw [hw, List.length_nil] at hcount
    exact ⟨by simpa using h.setup, by simpa using h.idle, hkeys, by simpa using h.groups, by omega, by simpa using h.handed⟩
  | mapLamps es =>
    exact PanelRanges.replyTo (h.of_eq (by simp) (by simp) (by simp) (by simp) (by simp)) _ _ _
  | groupSetup g delay interval =>
    obtain ⟨hd, hi1, hi2⟩ := of_decide_eq_true ha
    have hset : PanelRanges (setGroup g { s.groups[g] with delay, interval } s) := by
      refine ⟨h.setup, h.idle, h.keys, fun g' => ?_, h.waiting, h.handed⟩
      rw [setGroup, vector_set_get]
      split
      · exact ⟨hd, hi1, hi2⟩
      · exact h.groups g'
    exact hset.replyTo _ _ _
  | dissolve g =>
    have hgroup : PanelRanges (setGroup g { s.groups[g] with members := PerPort.all none } s) :=
      h.congr rfl le_rfl rfl (setGroup_repeat rfl rfl) le_rfl rfl
    simp only [Machine.carryOut, takeDissolve]
    refine PanelRanges.replyTo (PanelRanges.raceChoice ?_ _) _ _ _
    split
    · exact hgroup.of_eq (by simp) (by simp) (by simp) (by simp) (by simp)
    · exact hgroup.of_eq (by simp) (by simp) (by simp) (by simp) (by simp)
  | scanSetup su =>
    simp only [Machine.carryOut, takeScanSetup]
    split
    · have hset : PanelRanges { s with scan := { s.scan with setup := su } } := ⟨ha, h.idle, h.keys, h.groups, h.waiting, h.handed⟩
      exact hset.replyTo _ _ _
    · exact h.replyTo _ _ _
  | scanControl op =>
    cases op with
    | start =>
      simp only [Machine.carryOut, takeScanControl, takeScanStart]
      split
      · exact h.replyTo _ _ _
      · split
        · exact h.replyTo _ _ _
        · exact (h.enterActive.raceChoice _).replyTo _ _ _
        · exact (h.enterActive.raceChoice _).replyTo _ _ _
    | halt =>
      simp only [Machine.carryOut, takeScanControl, takeScanHalt]
      split
      · exact h.replyTo _ _ _
      · split
        · exact h.replyTo _ _ _
        · exact (h.enterHalted.raceChoice _).replyTo _ _ _
        · exact h.of_scan h.setup h.idle rfl rfl rfl rfl
    | watch =>
      simp only [Machine.carryOut, takeScanControl, takeScanWatch]
      split
      · exact h.replyTo _ _ _
      · split
        · exact h.replyTo _ _ _
        · exact h.replyTo _ _ _
        · split
          · exact (h.enterWatch.raceChoice _).replyTo _ _ _
          · exact h.replyTo _ _ _
  | reset =>
    exact PanelRanges.congr (h.replyTo r .ok .none) rfl le_rfl rfl (fun _ => ⟨rfl, rfl⟩) le_rfl rfl

theorem PanelRanges.setHanded {s : State} (h : PanelRanges s) (p : Port) {x : Option Handed} (hx : ∀ y, x = some y → y.ask.inRange = true) :
    PanelRanges (setHanded p x s) where
  setup := h.setup
  idle := h.idle
  keys := h.keys
  groups := h.groups
  waiting := h.waiting
  handed q y hy := by
    by_cases hq : q = p
    · subst hq
      rw [setHanded_handed_same] at hy
      exact hx y hy
    · rw [setHanded_handed_ne hq] at hy
      exact h.handed q y hy

theorem PanelRanges.fullReset (s : State) : PanelRanges (fullReset s) where
  setup := rfl
  idle := Nat.zero_le _
  keys k := by
    have e : (Machine.fullReset s).keys.recs[k] = KeyRec.atReset := getElem_replicate_fin _ k
    rw [e]
    exact ⟨Nat.zero_le _, Nat.zero_le _, Nat.zero_le _⟩
  groups g := by
    have e : (Machine.fullReset s).groups[g] = GroupRec.atReset := getElem_replicate_fin _ g
    rw [e]
    unfold GroupRec.inRange
    decide
  waiting := Nat.zero_le _
  handed p h e := by
    have hn : (Machine.fullReset s).mgr.handed.get p = none := PerPort.get_all _ p
    rw [hn] at e
    cases e

theorem PanelRanges.scannerEvent {s s' : State} (h : PanelRanges s) (he : scannerEvent s = some s') : PanelRanges s' := by
  obtain ⟨hw, ⟨_, rfl⟩ | ⟨_, rfl⟩ | ⟨_, rfl⟩⟩ := scannerEvent_cases he
  · exact (h.takeImage hw).afterImage
  · have hhalt : PanelRanges (takeHalt s) := h.sweep hw fun k => KeyRec.toUp_inRange _
    exact hhalt.of_scan h.setup h.idle rfl rfl rfl rfl
  · unfold endHalt
    simp only
    split
    · rename_i x _
      have hr := h.enterHalted.raceChoice x.port
      have hc : PanelRanges { Machine.raceChoice x.port (Machine.enterHalted s) with
          scan := { (Machine.raceChoice x.port (Machine.enterHalted s)).scan with halt := none } } :=
        hr.of_scan hr.setup hr.idle rfl rfl rfl rfl
      exact hc.of_eq (by simp) (by simp) (by simp) (by simp) (by simp)
    · exact h.enterHalted

theorem PanelRanges.endForOpen {s : State} (h : PanelRanges s) (p : Port) : PanelRanges (endForOpen p s) := by
  unfold Machine.endForOpen
  split
  · exact h.teardown p _
  · exact h.congr rfl le_rfl rfl (fun _ => ⟨rfl, rfl⟩) le_rfl rfl

theorem PanelRanges.takeOpen {s : State} (h : PanelRanges s) (p : Port) (seq : Byte) (payload : List Byte) :
    PanelRanges (takeOpen p seq payload s) := by
  have hend := h.endForOpen p
  have hrefuse : ∀ st : Status, PanelRanges (refuseOpen p st (Machine.endForOpen p s)) := fun _ => hend.of_eq rfl rfl rfl rfl rfl
  unfold Machine.takeOpen
  split
  · exact PanelRanges.fullReset s
  · simp only
    split
    · exact hrefuse _
    · split
      · exact hrefuse _
      · split
        · exact hrefuse _
        · exact hend.congr (by simp [beginSession]) (by simp [beginSession]) (by simp [beginSession]) (by simp [beginSession])
            (by simp [beginSession]) (by simp [beginSession])

theorem keptByStep_panelRanges : KeptByStep PanelRanges :=
  KeptByEvent.keptByStep (hf := fun _ _ h => h.of_eq rfl rfl rfl rfl rfl)
    { races := fun _ h => h.of_eq rfl rfl rfl rfl rfl
      choose := fun h _ _ => h.of_eq rfl rfl rfl rfl rfl
      produce := fun p r h => h.of_eq (by simp) (by simp) (by simp) (by simp) (by simp)
      scanner := fun h he => h.scannerEvent he
      unhand := fun p h => h.setHanded p (fun _ e => nomatch e)
      owner := fun {s p x} h hx hr _ => by
        have hu : PanelRanges (setHanded p none s) := h.setHanded p (fun _ e => nomatch e)
        refine hu.carryOut x.req (h.handed p x hx) fun es e => ?_
        rw [e] at hr
        exact List.isEmpty_iff.mp hr
      unqueue := fun h _ => h.congr rfl le_rfl rfl (fun _ => ⟨rfl, rfl⟩) le_rfl rfl
      fresh := fun {s p w rest a} h _ _ _ hd _ hr => by
        have hu : PanelRanges (setInbox p rest s) := h.congr rfl le_rfl rfl (fun _ => ⟨rfl, rfl⟩) le_rfl rfl
        refine hu.carryOut w.req (decodeRequest_ok hd).2.2 fun es e => ?_
        rw [e] at hr
        exact List.isEmpty_iff.mp hr
      hand := fun h hd _ => h.setHanded _ (fun y e => by cases e; exact (decodeRequest_ok hd).2.2)
      reset := fun {s} _ => PanelRanges.fullReset s
      ackByte := fun p a h => by
        unfold takeAckByte
        simp only
        split <;> exact h.congr rfl le_rfl rfl (fun _ => ⟨rfl, rfl⟩) le_rfl rfl
      oweAck := fun _ h => h.of_eq rfl rfl rfl rfl rfl
      opening := fun {s} p seq payload h => PanelRanges.takeOpen (s := updLink p _ s) (h.of_eq rfl rfl rfl rfl rfl) p seq payload
      noSession := fun _ h => h.of_eq rfl rfl rfl rfl rfl
      accept := fun _ _ h _ _ => h.congr rfl le_rfl rfl (fun _ => ⟨rfl, rfl⟩) le_rfl rfl
      pending := fun _ h => h.of_eq rfl rfl rfl rfl rfl
      pins := fun _ h => h.of_eq rfl rfl rfl rfl rfl
      snapshotRead := fun _ h => h.congr rfl le_rfl rfl (fun _ => ⟨rfl, rfl⟩) le_rfl rfl
      slotEnd := fun {s c} sense h _ => h.congr (by rw [endSlot_eq]) (by rw [endSlot_eq]) (by simp) (by simp) (by simp) (by simp)
      completion := fun h _ => h.of_scan h.setup h.idle rfl rfl rfl rfl
      watchSample := fun sense h _ => by
        unfold takeWatchSample
        split
        · exact h.enterActive
        · exact h.of_scan h.setup h.idle rfl rfl rfl rfl
      litDemand := fun {s n} h _ => by
        have h' : PanelRanges { s with scan := { s.scan with litDemands := n } } := h.of_scan h.setup h.idle rfl rfl rfl rfl
        unfold takeLitDemand
        split
        · exact h'.enterActive
        all_goals exact h'
      routing := fun {s} h => by
        unfold routeNext
        split
        · exact h
        · rename_i t rest hw
          refine h.congr (by simp) (by simp) (by simp) (by simp) ?_ (by simp)
          rw [(route_keeps _ _).2.2.2.1, hw]
          exact Nat.le_succ _
      lastRetry := fun {s} p h => by
        have h' : PanelRanges (updLink p Link.giveUp s) := h.of_eq rfl rfl rfl rfl rfl
        unfold retryLimitReached
        split
        · exact PanelRanges.fullReset _
        · split
          · exact h'
          · exact h'.teardown p _
          · exact h.congr rfl le_rfl rfl (fun _ => ⟨rfl, rfl⟩) le_rfl rfl
      retry := fun p h _ _ => h.of_eq (by simp) (by simp) (by simp) (by simp) (by simp)
      holdoff := fun _ h => h.of_eq rfl rfl rfl rfl rfl
      frameEnd := fun p h _ => h.of_eq (by simp) (by simp) (by simp) (by simp) (by simp) }

/-- Settles O55: the three parts of the ranges, each kept by itself. -/
theorem stepKeepsRanges : Obligations.StepKeepsRanges := by
  intro s t h hs
  obtain ⟨h1, h2, h3⟩ := (ranges_iff s).mp h
  exact (ranges_iff t).mpr ⟨keptByStep_panelRanges.step h1 hs, deliveryKept_inRange.keptByStep.step h2 hs,
    (linkKept_inRange.keptByStep fun _ h => h).step h3 hs⟩

end Sys2Proof.Machine

/-! ### The Session Manager's conditions -/

namespace Sys2Proof.Machine

/-- What the sessions' soundness asks of the Session Manager's own record. -/
structure Manager.Sound (m : Manager) : Prop where
  role : ∀ p : Port, (m.sessions.get p).role.isSome = ((m.sessions.get p).state == .open)
  tag : ∀ p : Port, (m.sessions.get p).tag.isSome = ((m.sessions.get p).state == .open)
  identity : ∀ p : Port, (m.sessions.get p).state = .open → (m.sessions.get p).identity.isSome = true
  claim : ∀ p : Port, m.adminClaim = some p ↔ (m.sessions.get p).state = .open ∧ (m.sessions.get p).role = some .admin
  handed : ∀ (p : Port) (h : Handed), m.handed.get p = some h → h.req.port = p ∧ h.ask.canWait = true
  inbox : ∀ (p : Port), ∀ w ∈ m.inbox.get p,
    w.req.port = p ∧ (w.passed = true → ∃ (q : Port) (n : Nat), q ≠ p ∧ m.resetInFlight = some (q, n))
  reset : ∀ (p : Port) (n : Nat), m.resetInFlight = some (p, n) → m.adminClaim = some p ∧ (m.sessions.get p).identity = some n

theorem sessionsSound_iff (s : State) : SessionsSound s ↔ s.mgr.Sound := by
  simp only [SessionsSound, isOpen, sessionOf, beq_iff_eq]
  exact ⟨fun ⟨h, hr⟩ => ⟨fun p => (h p).1, fun p => (h p).2.1, fun p => (h p).2.2.1, fun p => (h p).2.2.2.1, fun p => (h p).2.2.2.2.1,
      fun p => (h p).2.2.2.2.2, hr⟩,
    fun h => ⟨fun p => ⟨h.role p, h.tag p, h.identity p, h.claim p, h.handed p, h.inbox p⟩, h.reset⟩⟩

theorem Manager.sound_atReset : Manager.atReset.Sound := by
  refine ⟨fun p => ?_, fun p => ?_, fun p e => ?_, fun p => ?_, fun p h e => ?_, fun p w e => ?_, fun _ _ e => nomatch e⟩ <;>
    simp only [Manager.atReset, PerPort.get_all, Session.atReset] at *
  all_goals simp_all

/-- A request that must wait for its owner is one that can. -/
theorem canWait_of_not_ready {s : State} {p : Port} {a : Ask} (h : ownerReady s p a = false) : a.canWait = true := by
  cases a with
  | snapshot _ | mapKeys _ | scanSetup _ | scanControl _ => rfl
  | close | grant _ | join _ _ | leave _ | lamps _ | status | mapLamps _ | groupSetup _ _ _ | dissolve _ | reset => exact nomatch h

/-- Of the owners' parts those of CLOSE and RESET alone change the Session Manager. -/
theorem carryOut_mgr {a : Ask} (hc : a ≠ .close) (hr : a ≠ .reset) (r : Request) (s : State) : (carryOut r a s).mgr = s.mgr := by
  cases a with
  | close => exact absurd rfl hc
  | reset => exact absurd rfl hr
  | grant n => simp [carryOut, takeGrant]
  | join g m =>
    simp only [carryOut, takeJoin]
    split <;> simp
  | leave g =>
    simp only [carryOut, takeLeave]
    split <;> simp
  | snapshot g =>
    simp only [carryOut, takeSnapshot]
    split <;> simp
  | lamps es =>
    simp only [carryOut, takeLamps]
    split
    · simp
    · split <;> simp
  | status => simp [carryOut, takeStatus]
  | mapKeys es => simp [carryOut, takeMapKeys]
  | mapLamps es => simp [carryOut, takeMapLamps]
  | groupSetup g delay interval => simp [carryOut, takeGroupSetup]
  | dissolve g =>
    simp only [carryOut, takeDissolve]
    split <;> simp
  | scanSetup su =>
    simp only [carryOut, takeScanSetup]
    split <;> simp
  | scanControl op =>
    cases op with
    | start =>
      simp only [carryOut, takeScanControl, takeScanStart, scanReply]
      split
      · simp
      · split <;> simp
    | halt =>
      simp only [carryOut, takeScanControl, takeScanHalt, scanReply]
      split
      · simp
      · split <;> simp
    | watch =>
      simp only [carryOut, takeScanControl, takeScanWatch, scanReply]
      split
      · simp
      · split
        · simp
        · simp
        · split <;> simp

/-- What the stages after an image can be: the halt is due, WATCH is entered, or the next scan frame begins (R4, R6, R16). -/
theorem afterImage_cases (s : State) :
    (s.scan.halt.isSome = true ∧ afterImage s = { updateIdle s with scan := { (updateIdle s).scan with phase := .haltWaiting } }) ∨
      (s.scan.halt.isSome = false ∧ watchDue (updateIdle s) = true ∧ afterImage s = enterWatch (updateIdle s)) ∨
      (s.scan.halt.isSome = false ∧ watchDue (updateIdle s) = false ∧ afterImage s = beginFrame (updateIdle s)) := by
  have hh : (updateIdle s).scan.halt = s.scan.halt := rfl
  rw [← hh]
  unfold afterImage
  cases hhalt : (updateIdle s).scan.halt.isSome with
  | true => exact Or.inl ⟨rfl, if_pos hhalt⟩
  | false =>
    cases hw : watchDue (updateIdle s) with
    | true => exact Or.inr (Or.inl ⟨rfl, rfl, by simp only [hhalt, hw, Bool.false_eq_true, if_false, if_true]⟩)
    | false => exact Or.inr (Or.inr ⟨rfl, rfl, by simp only [hhalt, hw, Bool.false_eq_true, if_false]⟩)

@[simp] theorem afterImage_keeps (s : State) :
    (afterImage s).keys = s.keys ∧ (afterImage s).groups = s.groups ∧ (afterImage s).disp = s.disp ∧ (afterImage s).lamps = s.lamps ∧
      (afterImage s).link = s.link ∧ (afterImage s).mgr = s.mgr ∧ (afterImage s).pins = s.pins ∧ (afterImage s).races = s.races ∧
      (afterImage s).pending = s.pending := by
  rcases afterImage_cases s with ⟨_, e⟩ | ⟨_, _, e⟩ | ⟨_, _, e⟩ <;> rw [e]
  · exact ⟨rfl, rfl, rfl, rfl, rfl, rfl, rfl, rfl, rfl⟩
  · exact enterWatch_keeps (updateIdle s)
  · exact ⟨rfl, rfl, rfl, rfl, rfl, rfl, rfl, rfl, rfl⟩

theorem scannerEvent_mgr {s s' : State} (h : scannerEvent s = some s') : s'.mgr = s.mgr := by
  obtain ⟨_, ⟨_, rfl⟩ | ⟨_, rfl⟩ | ⟨_, rfl⟩⟩ := scannerEvent_cases h
  · simp
  · simp
  · unfold endHalt
    simp only
    split <;> simp

theorem teardown_mgr (p : Port) (st : SessionState) (s : State) :
    (teardown p st s).mgr =
      { s.mgr with
        sessions := s.mgr.sessions.set p { s.mgr.sessions.get p with state := st, role := none, tag := none }
        adminClaim := if s.mgr.adminClaim = some p then none else s.mgr.adminClaim
        inbox := s.mgr.inbox.set p [] } := by
  simp only [teardown, updDelivery_mgr, removePort_mgr, setInbox, setSession, sessionOf]
  rfl

namespace Manager.Sound

variable {m : Manager} (h : m.Sound)
include h

/-- The port of the reset in flight is OPEN. -/
theorem open_of_reset {p : Port} {n : Nat} (e : m.resetInFlight = some (p, n)) : (m.sessions.get p).state = .open :=
  ((h.claim p).mp (h.reset p n e).1).1

theorem setHanded (p : Port) {x : Option Handed} (hx : ∀ y, x = some y → y.req.port = p ∧ y.ask.canWait = true) :
    ({ m with handed := m.handed.set p x } : Manager).Sound :=
  { h with
    handed := fun q y hy => by
      rw [PerPort.get_set] at hy
      by_cases hq : q = p
      · subst hq
        rw [if_pos rfl] at hy
        exact hx y hy
      · rw [if_neg hq] at hy
        exact h.handed q y hy }

theorem setInbox (p : Port) {ws : List Queued}
    (hws : ∀ w ∈ ws, w.req.port = p ∧ (w.passed = true → ∃ (q : Port) (n : Nat), q ≠ p ∧ m.resetInFlight = some (q, n))) :
    ({ m with inbox := m.inbox.set p ws } : Manager).Sound :=
  { h with
    inbox := fun q w hw => by
      dsimp only at hw
      rw [PerPort.get_set] at hw
      by_cases hq : q = p
      · subst hq
        rw [if_pos rfl] at hw
        exact hws w hw
      · rw [if_neg hq] at hw
        exact h.inbox q w hw }

/-- A port's session takes a state that is not OPEN, its claim goes, and the reset in flight is not its own. -/
theorem endSession {p : Port} {x : Session} {claim : Option Port} (hx : x.state ≠ .open) (hr : x.role = none) (ht : x.tag = none)
    (hclaim : claim = if m.adminClaim = some p then none else m.adminClaim) (hreset : ∀ n, m.resetInFlight ≠ some (p, n)) :
    ({ m with sessions := m.sessions.set p x, adminClaim := claim } : Manager).Sound := by
  have hne : ∀ q, q ≠ p → (claim = some q ↔ m.adminClaim = some q) := by
    intro q hq
    rw [hclaim]
    split
    · rename_i hp
      rw [hp]
      simp [Ne.symm hq]
    · rfl
  have hp : claim ≠ some p := by
    rw [hclaim]
    split
    · simp
    · assumption
  have hb : (x.state == SessionState.open) = false := beq_eq_false_iff_ne.mpr hx
  refine ⟨fun q => ?_, fun q => ?_, fun q => ?_, fun q => ?_, h.handed, h.inbox, fun q n e => ?_⟩ <;> by_cases hq : q = p
  · subst hq
    simp only [PerPort.get_set_same, hr, hb, Option.isSome_none]
  · simp only [PerPort.get_set_ne _ hq]
    exact h.role q
  · subst hq
    simp only [PerPort.get_set_same, ht, hb, Option.isSome_none]
  · simp only [PerPort.get_set_ne _ hq]
    exact h.tag q
  · subst hq
    simp only [PerPort.get_set_same]
    exact fun e => absurd e hx
  · simp only [PerPort.get_set_ne _ hq]
    exact h.identity q
  · subst hq
    simp only [PerPort.get_set_same, hp, hx, false_and]
  · simp only [PerPort.get_set_ne _ hq]
    exact (hne q hq).trans (h.claim q)
  · subst hq
    exact absurd e (hreset n)
  · simp only [PerPort.get_set_ne _ hq]
    obtain ⟨h1, h2⟩ := h.reset q n e
    exact ⟨(hne q hq).mpr h1, h2⟩

/-- A session that is not OPEN has no role and no tag, and no reset of its own is in flight. -/
theorem not_open {p : Port} (hn : (m.sessions.get p).state ≠ .open) :
    (m.sessions.get p).role = none ∧ (m.sessions.get p).tag = none ∧ m.adminClaim ≠ some p ∧ ∀ n, m.resetInFlight ≠ some (p, n) := by
  have hb : ((m.sessions.get p).state == SessionState.open) = false := beq_eq_false_iff_ne.mpr hn
  have hr := h.role p
  have ht := h.tag p
  rw [hb, ← Bool.not_eq_true, Option.not_isSome_iff_eq_none] at hr ht
  exact ⟨hr, ht, fun e => hn ((h.claim p).mp e).1, fun n e => hn (h.open_of_reset e)⟩

/-- A session that is not OPEN changes its state to another such one. -/
theorem closeSession {p : Port} (hn : (m.sessions.get p).state ≠ .open) :
    ({ m with sessions := m.sessions.set p { m.sessions.get p with state := .closed } } : Manager).Sound := by
  obtain ⟨hr, ht, hc, hreset⟩ := h.not_open hn
  exact h.endSession nofun hr ht (if_neg hc).symm hreset

/-- A session opens on a port whose session is not OPEN, with no reset in flight, and with no claim held elsewhere if its role is ADMIN. -/
theorem openSession {p : Port} {x : Session} {role : Role} (hn : (m.sessions.get p).state ≠ .open) (hx : x.state = .open)
    (hr : x.role = some role) (ht : x.tag.isSome = true) (hi : x.identity.isSome = true) (hreset : m.resetInFlight = none)
    (hclaim : role = .admin → ∀ q, q ≠ p → m.adminClaim ≠ some q) :
    ({ m with sessions := m.sessions.set p x, adminClaim := if role = .admin then some p else m.adminClaim } : Manager).Sound := by
  obtain ⟨_, _, hc, _⟩ := h.not_open hn
  refine ⟨fun q => ?_, fun q => ?_, fun q => ?_, fun q => ?_, h.handed, h.inbox, fun q n e => ?_⟩ <;> by_cases hq : q = p
  · subst hq
    simp only [PerPort.get_set_same, hr, hx, Option.isSome_some, beq_self_eq_true]
  · simp only [PerPort.get_set_ne _ hq]
    exact h.role q
  · subst hq
    simp only [PerPort.get_set_same, ht, hx, beq_self_eq_true]
  · simp only [PerPort.get_set_ne _ hq]
    exact h.tag q
  · subst hq
    simp only [PerPort.get_set_same, hi, implies_true]
  · simp only [PerPort.get_set_ne _ hq]
    exact h.identity q
  · subst hq
    simp only [PerPort.get_set_same, hx, hr]
    cases role <;> simp [hc]
  · simp only [PerPort.get_set_ne _ hq]
    rw [← h.claim q]
    split
    · rename_i ha
      simp [hclaim ha q hq, Ne.symm hq]
    · rfl
  · dsimp only at e
    rw [hreset] at e
    cases e
  · dsimp only at e
    rw [hreset] at e
    cases e

/-- A RESET of the claim's holder is recorded, and the other ports' waiting requests pass. -/
theorem takeReset {p : Port} {n : Nat} (hnone : m.resetInFlight = none) (hclaim : m.adminClaim = some p)
    (hid : (m.sessions.get p).identity = some n) :
    ({ m with resetInFlight := some (p, n), inbox := passOthers p m.inbox } : Manager).Sound :=
  { h with
    inbox := fun q w hw => by
      by_cases hq : q = p
      · subst hq
        simp only [passOthers_get_same] at hw
        obtain ⟨hport, hpass⟩ := h.inbox q w hw
        refine ⟨hport, fun hp => ?_⟩
        obtain ⟨_, _, _, e⟩ := hpass hp
        rw [hnone] at e
        cases e
      · simp only [passOthers_get_ne hq, List.mem_map] at hw
        obtain ⟨w', hw', rfl⟩ := hw
        exact ⟨(h.inbox q w' hw').1, fun _ => ⟨p, n, Ne.symm hq, rfl⟩⟩
    reset := fun q k e => by
      cases e
      exact ⟨hclaim, hid⟩ }

end Manager.Sound

section

variable {s : State}

theorem endForOpen_mgr_sound (h : s.mgr.Sound) {p : Port} (hreset : (isOpen s p && resetOn s p) = false) :
    (endForOpen p s).mgr.Sound ∧ ((endForOpen p s).mgr.sessions.get p).state ≠ .open ∧
      (endForOpen p s).mgr.resetInFlight = s.mgr.resetInFlight := by
  unfold endForOpen
  split
  · rename_i ho
    have hno : ∀ n, s.mgr.resetInFlight ≠ some (p, n) := by
      intro n e
      simp [ho, resetOn, e] at hreset
    rw [teardown_mgr]
    refine ⟨?_, by simp, rfl⟩
    have he := h.endSession (p := p) (x := { s.mgr.sessions.get p with state := .closed, role := none, tag := none }) nofun rfl rfl rfl hno
    exact he.setInbox p (by simp)
  · rename_i ho
    have hn : (s.mgr.sessions.get p).state ≠ .open := by
      simpa [isOpen, sessionOf] using ho
    exact ⟨h.closeSession hn, by simp [setSession], rfl⟩

theorem retryLimitReached_mgr_sound (h : s.mgr.Sound) (p : Port) : (retryLimitReached p s).mgr.Sound := by
  unfold retryLimitReached
  split
  · exact Manager.sound_atReset
  · rename_i hr
    split
    · exact h
    · rw [teardown_mgr]
      have hno : ∀ n, s.mgr.resetInFlight ≠ some (p, n) := by
        intro n e
        simp [resetOn, e] at hr
      have he := h.endSession (p := p) (x := { s.mgr.sessions.get p with state := .closed, role := none, tag := none }) nofun rfl rfl rfl hno
      exact he.setInbox p (by simp)
    · rename_i hst
      exact h.closeSession (by rw [sessionOf] at hst; rw [hst]; decide)

theorem takeOpen_mgr_sound (h : s.mgr.Sound) (p : Port) (seq : Byte) (payload : List Byte) : (takeOpen p seq payload s).mgr.Sound := by
  unfold takeOpen
  split
  · exact Manager.sound_atReset
  · rename_i hr
    obtain ⟨hend, hstate, hsame⟩ := endForOpen_mgr_sound h (Bool.eq_false_iff.mpr hr)
    simp only
    split
    · exact hend
    · rename_i hother
      split
      · exact hend
      · rename_i o _
        split
        · exact hend
        · rename_i hclaim
          have hnone : (endForOpen p s).mgr.resetInFlight = none := by
            cases e : (endForOpen p s).mgr.resetInFlight with
            | none => rfl
            | some x =>
              obtain ⟨q, n⟩ := x
              have hq : q = p := by simpa [resetElsewhere, e] using hother
              subst hq
              exact absurd e ((hend.not_open hstate).2.2.2 n)
          have hadmin : o.role = .admin → ∀ q, q ≠ p → (endForOpen p s).mgr.adminClaim ≠ some q := by
            intro ha q hq e
            simp [ha, claimElsewhere, e, hq] at hclaim
          have hopen := hend.openSession (p := p) (role := o.role)
            (x := { state := .open, role := some o.role, tag := some o.tag, identity := some (nextIdentity (sessionOf (endForOpen p s) p)) })
            hstate rfl rfl rfl rfl hnone hadmin
          have hm : (beginSession p seq o (endForOpen p s)).mgr =
              { (endForOpen p s).mgr with
                sessions := (endForOpen p s).mgr.sessions.set p
                  { state := .open, role := some o.role, tag := some o.tag, identity := some (nextIdentity (sessionOf (endForOpen p s) p)) }
                adminClaim := if o.role = .admin then some p else (endForOpen p s).mgr.adminClaim } := by
            simp only [beginSession, produce_mgr, updLink_mgr]
            rfl
          rw [hm]
          exact hopen

/-- A RESET or a CLOSE that has just passed the checks of R150 is its own port's, and no reset of that port is in flight. -/
theorem carryOut_fresh_mgr_sound (h : s.mgr.Sound) {p : Port} {w : Queued} {rest : List Queued} {a : Ask} (hi : s.mgr.inbox.get p = w :: rest)
    (hlive : requestLive s w.req = true) (hreset : resetRefused w s = false) (hrole : roleRefused s w.req.port a = false) :
    (carryOut w.req a (setInbox p rest s)).mgr.Sound := by
  obtain ⟨hport, hpass⟩ := h.inbox p w (by rw [hi]; exact List.mem_cons_self)
  have hu : (setInbox p rest s).mgr.Sound := h.setInbox p fun x hx => h.inbox p x (by rw [hi]; exact List.mem_cons_of_mem _ hx)
  simp only [requestLive, isLive, isOpen, Bool.and_eq_true, beq_iff_eq, hport] at hlive
  obtain ⟨hopen, hid⟩ := hlive
  have hother : s.mgr.resetInFlight = none ∨ ∃ q n, q ≠ p ∧ s.mgr.resetInFlight = some (q, n) := by
    cases hf : s.mgr.resetInFlight with
    | none => exact Or.inl rfl
    | some x =>
      rw [← hf]
      refine Or.inr (hpass ?_)
      simpa [resetRefused, hf] using hreset
  by_cases hc : a = .close
  · subst hc
    have hm : (carryOut w.req .close (setInbox p rest s)).mgr = (teardown p .closing (replyTo w.req .ok .none (setInbox p rest s))).mgr := by
      rw [← hport]
      rfl
    rw [hm, teardown_mgr, replyTo_mgr]
    have hno : ∀ n, s.mgr.resetInFlight ≠ some (p, n) := by
      rintro n e
      rcases hother with e' | ⟨q, k, hq, e'⟩
      · rw [e] at e'
        cases e'
      · rw [e] at e'
        cases e'
        exact hq rfl
    have he := hu.endSession (p := p) (x := { (setInbox p rest s).mgr.sessions.get p with state := .closing, role := none, tag := none })
      nofun rfl rfl rfl hno
    exact he.setInbox p (by simp)
  · by_cases hr : a = .reset
    · subst hr
      have hadmin : s.mgr.adminClaim = some p := by
        refine (h.claim p).mpr ⟨hopen, ?_⟩
        simpa [roleRefused, Ask.adminOnly, hport, sessionOf] using hrole
      have hnone : s.mgr.resetInFlight = none := by
        rcases hother with e | ⟨q, n, hq, e⟩
        · exact e
        · have hclaim := (h.reset q n e).1
          rw [hadmin] at hclaim
          cases hclaim
          exact absurd rfl hq
      have hm : (carryOut w.req .reset (setInbox p rest s)).mgr =
          { (setInbox p rest s).mgr with resetInFlight := some (p, w.req.session), inbox := passOthers p (setInbox p rest s).mgr.inbox } := by
        simp only [carryOut, Machine.takeReset, replyTo_mgr, hport]
      rw [hm]
      exact hu.takeReset hnone hadmin hid
    · rw [carryOut_mgr hc hr]
      exact hu

end

theorem keptByStep_manager : KeptByStep fun s => s.mgr.Sound :=
  KeptByEvent.keptByStep (hf := fun _ _ h => h)
    { races := fun _ h => h
      choose := fun h _ _ => h
      produce := fun p r h => by
        rw [produce_mgr]
        exact h
      scanner := fun h he => by
        rw [scannerEvent_mgr he]
        exact h
      unhand := fun p h => h.setHanded p (fun _ e => nomatch e)
      owner := fun {s p x} h hx _ _ => by
        have hw := (h.handed p x hx).2
        rw [carryOut_mgr (by rintro e; rw [e] at hw; cases hw) (by rintro e; rw [e] at hw; cases hw)]
        exact h.setHanded p (fun _ e => nomatch e)
      unqueue := fun {s p w rest} h hi => h.setInbox p fun x hx => h.inbox p x (by rw [hi]; exact List.mem_cons_of_mem _ hx)
      fresh := fun h hi hlive hreset _ hrole _ => carryOut_fresh_mgr_sound h hi hlive hreset hrole
      hand := fun {s r a} h _ hr => h.setHanded r.port (fun y e => by cases e; exact ⟨rfl, canWait_of_not_ready hr⟩)
      reset := fun _ => Manager.sound_atReset
      ackByte := fun {s} p a h => by
        unfold takeAckByte
        simp only
        split
        · rename_i hc
          refine h.closeSession (p := p) ?_
          simp only [ackEndsClosing, Bool.and_eq_true, beq_iff_eq, sessionOf] at hc
          rw [hc.1]
          decide
        · exact h
      oweAck := fun _ h => h
      opening := fun {s} p seq payload h => takeOpen_mgr_sound (s := updLink p _ s) h p seq payload
      noSession := fun _ h => h
      accept := fun {s} p f h _ _ => h.setInbox p fun w hw => by
        rcases List.mem_append.mp hw with hw | hw
        · exact h.inbox p w hw
        · rw [List.mem_singleton.mp hw]
          exact ⟨rfl, fun e => nomatch e⟩
      pending := fun _ h => h
      pins := fun _ h => h
      snapshotRead := fun _ h => h
      slotEnd := fun {s c} sense h _ => by
        rw [(endSlot_keeps sense c s).2.2.2.2.2.2.1]
        exact h
      completion := fun h _ => h
      watchSample := fun {s} sense h _ => by
        rw [(takeWatchSample_keeps sense s).2.2.2.2.2.1]
        exact h
      litDemand := fun {s n} h _ => by
        rw [(takeLitDemand_keeps _).2.2.2.2.2.1]
        exact h
      routing := fun {s} h => by
        unfold routeNext
        split
        · exact h
        · rw [(route_keeps _ _).2.2.2.2.2.2.1]
          exact h
      lastRetry := fun {s} p h => retryLimitReached_mgr_sound (s := updLink p _ s) h p
      retry := fun p h _ _ => by
        rw [serve_mgr]
        exact h
      holdoff := fun _ h => h
      frameEnd := fun p h _ => by
        rw [serve_mgr]
        exact h }

/-- Settles O57: the conditions speak of the Session Manager's record alone, and each event that changes it keeps them. -/
theorem stepKeepsSessionsSound : Obligations.StepKeepsSessionsSound := by
  intro s t h hs
  exact (sessionsSound_iff t).mpr (keptByStep_manager.step ((sessionsSound_iff s).mp h) hs)

end Sys2Proof.Machine

/-! ## What happens to the lamps -/

namespace Sys2Proof.Machine

theorem anyLamp_iff {s : State} : anyLamp s = true ↔ ∃ l : Lamp, s.lamps[l].mode.lit = true := by
  unfold anyLamp
  rw [Vector.any_iff_exists]
  exact ⟨fun ⟨i, hi, h⟩ => ⟨⟨i, hi⟩, h⟩, fun ⟨l, h⟩ => ⟨l.val, l.isLt, h⟩⟩

theorem allUp_iff {s : State} : allUp s = true ↔ ∀ k : Key, s.keys.recs[k].state = .up := by
  unfold allUp
  simp only [Vector.all_iff_forall, beq_iff_eq]
  exact ⟨fun h k => h k.val k.isLt, fun h i hi => h ⟨i, hi⟩⟩

/-- The removal of the port leaves the group without members (R56). -/
def leavesEmpty (p : Port) (s : State) (g : Group) : Bool :=
  (memberMode s g p).isSome && memberless { s.groups[g] with members := s.groups[g].members.set p none }

theorem removeMember_lamps (p : Port) (s : State) (g : Group) (l : Lamp) :
    (removeMember p s g).lamps[l] = if s.lamps[l].group = some g ∧ leavesEmpty p s g = true then s.lamps[l].blank else s.lamps[l] := by
  unfold removeMember leavesEmpty
  cases (memberMode s g p).isSome with
  | false => simp
  | true =>
    simp only [if_true, Bool.true_and]
    split
    · rename_i hm
      rw [blank_get]
      simp only [setGroup_lamps, hm, and_true]
      congr
    · rename_i hm
      simp only [setGroup_lamps, hm, and_false, if_false, Bool.false_eq_true]

/-- Removing a port from one group does not touch what its removal does to another, and does nothing twice. -/
theorem leavesEmpty_removeMember (p : Port) (s : State) (g g' : Group) :
    leavesEmpty p (removeMember p s g) g' = (leavesEmpty p s g' && decide (g' ≠ g)) := by
  unfold leavesEmpty
  by_cases h : g' = g
  · subst h
    simp [memberMode_removeMember]
  · have hm : memberMode (removeMember p s g) g' p = memberMode s g' p := by
      rw [memberMode_removeMember, if_neg (fun e => h e.1)]
    rw [hm, removeMember_groups, if_neg h]
    simp [h]

theorem foldl_removeMember_lamps (p : Port) (gs : List Group) (s : State) (l : Lamp) :
    (gs.foldl (removeMember p) s).lamps[l] =
      if ∃ g ∈ gs, s.lamps[l].group = some g ∧ leavesEmpty p s g = true then s.lamps[l].blank else s.lamps[l] := by
  induction gs generalizing s with
  | nil => simp
  | cons g gs ih =>
    rw [List.foldl_cons, ih]
    simp only [leavesEmpty_removeMember, removeMember_lamps, Bool.and_eq_true, decide_eq_true_eq, List.exists_mem_cons_iff]
    by_cases hg : s.lamps[l].group = some g ∧ leavesEmpty p s g = true
    · have hdone : ¬ ∃ x ∈ gs, s.lamps[l].blank.group = some x ∧ leavesEmpty p s x = true ∧ x ≠ g := by
        rintro ⟨x, _, hx, _, hne⟩
        rw [LampRec.blank_group, hg.1, Option.some.injEq] at hx
        exact hne hx.symm
      rw [if_pos hg, if_neg hdone, if_pos (Or.inl hg)]
    · rw [if_neg hg]
      have hsame : (∃ x ∈ gs, s.lamps[l].group = some x ∧ leavesEmpty p s x = true ∧ x ≠ g) ↔
          ∃ x ∈ gs, s.lamps[l].group = some x ∧ leavesEmpty p s x = true := by
        constructor
        · rintro ⟨x, hx, h1, h2, _⟩
          exact ⟨x, hx, h1, h2⟩
        · rintro ⟨x, hx, h1, h2⟩
          exact ⟨x, hx, h1, h2, fun e => hg ⟨e ▸ h1, e ▸ h2⟩⟩
      simp only [hsame, hg, false_or]

/-- At the removal of a port the lamps of the groups left without members are blanked, and no other (R56, R57, R107). -/
theorem removePort_lamps (p : Port) (s : State) (l : Lamp) :
    (removePort p s).lamps[l] =
      if ∃ g, s.lamps[l].group = some g ∧ leavesEmpty p s g = true then s.lamps[l].blank else s.lamps[l] := by
  unfold removePort
  rw [foldl_removeMember_lamps]
  simp only [List.mem_finRange, true_and]

theorem teardown_lamps (p : Port) (st : SessionState) (s : State) (l : Lamp) :
    (teardown p st s).lamps[l] =
      if ∃ g, s.lamps[l].group = some g ∧ leavesEmpty p s g = true then s.lamps[l].blank else s.lamps[l] := by
  simp only [teardown, updDelivery_lamps]
  exact removePort_lamps p _ l

/-- Entries applied to lamps in list order leave each lamp what its last entry makes of it. -/
theorem foldl_lamps {α : Type} {f : State → α → State} {lamp : α → Lamp} {make : α → LampRec → LampRec}
    (hf : ∀ (s : State) (e : α) (l : Lamp), (f s e).lamps[l] = if lamp e = l then make e s.lamps[l] else s.lamps[l])
    (hmake : ∀ (e e' : α) (x : LampRec), make e (make e' x) = make e x) (es : List α) (s : State) (l : Lamp) :
    (es.foldl f s).lamps[l] = (es.reverse.find? fun e => lamp e == l).elim s.lamps[l] fun e => make e s.lamps[l] := by
  induction es using List.reverseRecOn with
  | nil => rfl
  | append_singleton es e ih =>
    rw [List.foldl_append, List.foldl_cons, List.foldl_nil, hf, List.reverse_append, List.reverse_singleton, List.singleton_append,
      List.find?_cons]
    by_cases h : lamp e = l
    · have hb : (lamp e == l) = true := beq_iff_eq.mpr h
      rw [if_pos h, hb, ih]
      cases es.reverse.find? fun e => lamp e == l with
      | some e' => exact hmake _ _ _
      | none => rfl
    · have hb : (lamp e == l) = false := beq_eq_false_iff_ne.mpr h
      rw [if_neg h, hb]
      exact ih

theorem setLamp_lamps (l : Lamp) (x : LampRec) (s : State) (l' : Lamp) : (setLamp l x s).lamps[l'] = if l = l' then x else s.lamps[l'] := by
  rw [setLamp, vector_set_get]
  simp only [eq_comm]

theorem foldl_mapLamp_lamps (es : List (Lamp × Option Group × Option Key)) (s : State) (l : Lamp) :
    (es.foldl mapLamp s).lamps[l] =
      match es.reverse.find? fun e => e.1 == l with
      | some e => { group := e.2.1, mode := match e.2.2 with | some k => .follow k | none => .switched .off }
      | none => s.lamps[l] := by
  rw [foldl_lamps (f := mapLamp) (lamp := Prod.fst)
    (make := fun e _ => { group := e.2.1, mode := match e.2.2 with | some k => .follow k | none => .switched .off })
    (fun s e l => setLamp_lamps e.1 _ s l) (fun _ _ _ => rfl)]
  cases es.reverse.find? fun e => e.1 == l <;> rfl

theorem foldl_switchLamp_lamps (es : List (Lamp × SwitchMode)) (s : State) (l : Lamp) :
    (es.foldl switchLamp s).lamps[l] =
      match es.reverse.find? fun e => e.1 == l with
      | some e => { s.lamps[l] with mode := .switched e.2 }
      | none => s.lamps[l] := by
  have hf : ∀ (s : State) (e : Lamp × SwitchMode) (l : Lamp),
      (switchLamp s e).lamps[l] = if e.1 = l then { s.lamps[l] with mode := .switched e.2 } else s.lamps[l] := by
    intro s e l
    refine (setLamp_lamps e.1 { s.lamps[e.1] with mode := .switched e.2 } s l).trans ?_
    by_cases h : e.1 = l
    · subst h
      rfl
    · rw [if_neg h, if_neg h]
  rw [foldl_lamps (lamp := Prod.fst) (make := fun e x => { x with mode := .switched e.2 }) hf (fun _ _ _ => rfl)]
  cases es.reverse.find? fun e => e.1 == l <;> rfl

theorem foldl_switchLamp_group (es : List (Lamp × SwitchMode)) (s : State) (l : Lamp) :
    (es.foldl switchLamp s).lamps[l].group = s.lamps[l].group := by
  rw [foldl_switchLamp_lamps]
  split <;> rfl

theorem namesLit_iff {es : List (Lamp × SwitchMode)} {s : State} : namesLit es s = true ↔ ∃ e ∈ es, s.lamps[e.1].mode.lit = true := by
  simp only [namesLit, List.any_eq_true]

/-- A lamp lit after LAMPS was lit before, or is named in it. -/
theorem anyLamp_foldl_switchLamp {es : List (Lamp × SwitchMode)} {s : State} (h : anyLamp (es.foldl switchLamp s) = true) :
    namesLit es (es.foldl switchLamp s) = true ∨ anyLamp s = true := by
  obtain ⟨l, hl⟩ := anyLamp_iff.mp h
  cases hf : es.reverse.find? fun e => e.1 == l with
  | some e =>
    have hmem : e ∈ es := List.mem_reverse.mp (List.mem_of_find?_eq_some hf)
    have hlamp : e.1 = l := by simpa using List.find?_some hf
    exact Or.inl (namesLit_iff.mpr ⟨e, hmem, by subst hlamp; exact hl⟩)
  | none =>
    rw [foldl_switchLamp_lamps, hf] at hl
    exact Or.inr (anyLamp_iff.mpr ⟨l, hl⟩)

end Sys2Proof.Machine

/-! ## The panel's conditions -/

namespace Sys2Proof.Machine

/-- What the panel's soundness asks of the scanner, given whether every key is UP and whether a lamp keeps it out of WATCH. -/
structure Scanner.Sound (sc : Scanner) (up lit : Bool) : Prop where
  active : sc.state = .active ↔ sc.phase ≠ .idle
  keysUp : sc.state ≠ .active → up = true
  routing : sc.phase = .haltRouting → up = true
  halt : sc.phase = .haltWaiting ∨ sc.phase = .haltRouting → sc.halt.isSome = true
  haltActive : sc.halt.isSome = true → sc.state = .active
  timer : sc.watchTimer.running = true ↔ sc.state = .watch
  lines : linesAllowed sc
  lamps : sc.state = .watch → lit = true → 0 < sc.litDemands

theorem panelSound_iff (s : State) : PanelSound s ↔ s.scan.Sound (allUp s) (anyLamp s) :=
  ⟨fun ⟨h1, h2, h3, h4, h5, h6, h7, h8⟩ => ⟨h1, h2, h3, h4, h5, h6, h7, h8⟩,
    fun h => ⟨h.active, h.keysUp, h.routing, h.halt, h.haltActive, h.timer, h.lines, h.lamps⟩⟩

/-- The panel's soundness, its scanner's part named. -/
abbrev PanelHolds (s : State) : Prop := s.scan.Sound (allUp s) (anyLamp s)

theorem Scanner.Sound.mono {sc : Scanner} {up up' lit lit' : Bool} (h : sc.Sound up lit) (hu : up = true → up' = true)
    (hl : lit' = true → lit = true) : sc.Sound up' lit' :=
  { h with
    keysUp := fun e => hu (h.keysUp e)
    routing := fun e => hu (h.routing e)
    lamps := fun e e' => h.lamps e (hl e') }

theorem allUp_of_eq {s t : State} (h : t.keys.recs = s.keys.recs) (hs : allUp s = true) : allUp t = true := by
  unfold allUp
  rw [h]
  exact hs

theorem allUp_congr {s t : State} (h : t.keys.recs = s.keys.recs) : allUp t = allUp s := by
  unfold allUp
  rw [h]

theorem anyLamp_congr {s t : State} (h : t.lamps = s.lamps) : anyLamp t = anyLamp s := by
  unfold anyLamp
  rw [h]

theorem anyLamp_of_eq {s t : State} (h : t.lamps = s.lamps) (ht : anyLamp t = true) : anyLamp s = true := by
  rw [← anyLamp_congr h]
  exact ht

/-- A state with the same scanner, no key less UP and no lamp more lit. -/
theorem PanelHolds.of_le {s t : State} (h : PanelHolds s) (hs : t.scan = s.scan) (hk : allUp s = true → allUp t = true)
    (hl : anyLamp t = true → anyLamp s = true) : PanelHolds t := by
  unfold PanelHolds
  rw [hs]
  exact h.mono hk hl

theorem PanelHolds.of_eq {s t : State} (h : PanelHolds s) (hs : t.scan = s.scan) (hk : t.keys = s.keys) (hl : t.lamps = s.lamps) :
    PanelHolds t :=
  h.of_le hs (allUp_of_eq (by rw [hk])) (anyLamp_of_eq hl)

theorem PanelHolds.replyTo {s : State} (h : PanelHolds s) (r : Request) (st : Status) (data : ReplyData) :
    PanelHolds (replyTo r st data s) := h.of_eq (by simp) (by simp) (by simp)

theorem PanelHolds.raceChoice {s : State} (h : PanelHolds s) (p : Port) : PanelHolds (raceChoice p s) :=
  h.of_eq (by simp) (by simp) (by simp)

/-! Entering the scan states. -/

/-- Slot D0's lines are its own. -/
theorem linesAllowed_slot {sc : Scanner} {c : Column} {lamps : BitVec 8} (hp : sc.phase = .slot c)
    (hd : sc.driveLines = if sc.setup.columnMask.getLsbD c.val then oneDriveLine c else 0)
    (hl : sc.lampLines = if sc.setup.columnMask.getLsbD c.val then lamps else 0) : linesAllowed sc := by
  unfold linesAllowed
  rw [hp, hd, hl]
  simp only
  split <;> simp

theorem linesAllowed_dark {sc : Scanner} (hp : ∀ c, sc.phase ≠ .slot c) (hd : sc.driveLines = 0) (hl : sc.lampLines = 0) : linesAllowed sc := by
  unfold linesAllowed
  cases h : sc.phase with
  | slot c => exact absurd h (hp c)
  | idle | frameEnd | imageWaiting | haltWaiting | haltRouting => exact ⟨hd, hl⟩

/-- In a place without a slot the lines are released. -/
theorem linesAllowed_released {sc : Scanner} (h : linesAllowed sc) (hp : ∀ c, sc.phase ≠ .slot c) : sc.driveLines = 0 ∧ sc.lampLines = 0 := by
  unfold linesAllowed at h
  cases hph : sc.phase with
  | slot c => exact absurd hph (hp c)
  | idle | frameEnd | imageWaiting | haltWaiting | haltRouting =>
    rw [hph] at h
    exact h

theorem PanelHolds.enterActive (s : State) : PanelHolds (enterActive s) := by
  unfold PanelHolds
  rw [enterActive_scan]
  refine ⟨by simp, fun e => absurd rfl e, nofun, nofun, fun _ => rfl, by simp, linesAllowed_slot rfl rfl rfl, nofun⟩

theorem PanelHolds.enterWatch {s : State} (hh : s.scan.halt = none) (hu : allUp s = true) (hl : anyLamp s = false) : PanelHolds (enterWatch s) := by
  have hk : allUp (Machine.enterWatch s) = true := allUp_of_eq (by simp) hu
  have hd : anyLamp (Machine.enterWatch s) = false := by
    rw [anyLamp_congr (s := s) (by simp)]
    exact hl
  unfold PanelHolds
  rw [enterWatch_scan]
  exact ⟨by simp, fun _ => hk, nofun, nofun, by simp [hh], by simp, linesAllowed_dark nofun rfl rfl, fun _ e => by rw [hd] at e; cases e⟩

/-- HALTED with every key UP; a HALT in flight is cleared with it. -/
theorem PanelHolds.enterHalted {s : State} (hu : allUp s = true) :
    ({ (enterHalted s).scan with halt := none } : Scanner).Sound (allUp (enterHalted s)) (anyLamp (enterHalted s)) := by
  have hk : allUp (Machine.enterHalted s) = true := allUp_of_eq (by simp) hu
  rw [enterHalted_scan]
  exact ⟨by simp, fun _ => hk, nofun, nofun, by simp, by simp, linesAllowed_dark nofun rfl rfl, nofun⟩

theorem PanelHolds.enterHalted_of_none {s : State} (hu : allUp s = true) (hh : s.scan.halt = none) : PanelHolds (Machine.enterHalted s) := by
  have h := PanelHolds.enterHalted hu
  have hsame : ({ (Machine.enterHalted s).scan with halt := none } : Scanner) = (Machine.enterHalted s).scan := by
    rw [enterHalted_scan, ← hh]
  rw [hsame] at h
  exact h

/-! The keys and the lamps. -/

theorem allUp_takeHalt (s : State) : allUp (takeHalt s) = true := by
  rw [allUp_iff]
  intro k
  rw [takeHalt_recs]
  rfl

/-- MAP KEYS leaves keys UP that are all UP: none of them is held. -/
theorem allUp_remapKey {s : State} (e : Key × Option Group) (h : allUp s = true) : allUp (remapKey s e) = true := by
  rw [allUp_iff] at h ⊢
  obtain ⟨key, g⟩ := e
  by_cases hg : s.keys.recs[key].group = g
  · rw [remapKey_same hg]
    exact h
  · have hh : s.keys.recs[key].state.held = false := by
      rw [h key]
      rfl
    rw [remapKey_not_held hg hh]
    intro k
    rw [vector_set_get]
    split
    · exact h key
    · exact h k

theorem allUp_foldl_remapKey {s : State} (es : List (Key × Option Group)) (h : allUp s = true) : allUp (es.foldl remapKey s) = true := by
  induction es generalizing s with
  | nil => exact h
  | cons e es ih => exact ih (allUp_remapKey e h)

theorem anyLamp_of_blanked {s t : State} (h : ∀ l : Lamp, t.lamps[l] = s.lamps[l] ∨ t.lamps[l].mode.lit = false) (ht : anyLamp t = true) :
    anyLamp s = true := by
  obtain ⟨l, hl⟩ := anyLamp_iff.mp ht
  rcases h l with e | e
  · rw [e] at hl
    exact anyLamp_iff.mpr ⟨l, hl⟩
  · rw [hl] at e
    cases e

theorem anyLamp_teardown {p : Port} {st : SessionState} {s : State} (h : anyLamp (teardown p st s) = true) : anyLamp s = true :=
  anyLamp_of_blanked (fun l => by
    rw [teardown_lamps]
    split
    · exact Or.inr (LampRec.blank_lit _)
    · exact Or.inl rfl) h

theorem anyLamp_blank {g : Group} {s : State} (h : anyLamp (blank g s) = true) : anyLamp s = true :=
  anyLamp_of_blanked (fun l => by
    rw [blank_get]
    split
    · exact Or.inr (LampRec.blank_lit _)
    · exact Or.inl rfl) h

theorem anyLamp_removeMember {p : Port} {g : Group} {s : State} (h : anyLamp (removeMember p s g) = true) : anyLamp s = true :=
  anyLamp_of_blanked (fun l => by
    rw [removeMember_lamps]
    split
    · exact Or.inr (LampRec.blank_lit _)
    · exact Or.inl rfl) h

theorem anyLamp_foldl_mapLamp {es : List (Lamp × Option Group × Option Key)} {s : State} (h : anyLamp (es.foldl mapLamp s) = true) :
    anyLamp s = true :=
  anyLamp_of_blanked (fun l => by
    rw [foldl_mapLamp_lamps]
    split
    · rename_i e _
      refine Or.inr ?_
      cases e.2.2 <;> rfl
    · exact Or.inl rfl) h

theorem PanelHolds.teardown {s : State} (h : PanelHolds s) (p : Port) (st : SessionState) : PanelHolds (teardown p st s) :=
  h.of_le (by simp) (allUp_of_eq (by simp)) anyLamp_teardown

/-! The owners' parts. -/

theorem PanelHolds.scanControl {s : State} (h : PanelHolds s) (r : Request) (op : ScanOp) : PanelHolds (takeScanControl r op s) := by
  cases op with
  | start =>
    simp only [takeScanControl, takeScanStart]
    split
    · exact h.replyTo _ _ _
    · split
      · exact h.replyTo _ _ _
      · exact ((PanelHolds.enterActive s).raceChoice _).replyTo _ _ _
      · exact ((PanelHolds.enterActive s).raceChoice _).replyTo _ _ _
  | halt =>
    simp only [takeScanControl, takeScanHalt]
    split
    · exact h.replyTo _ _ _
    · rename_i hh
      rw [Option.not_isSome_iff_eq_none] at hh
      split
      · exact h.replyTo _ _ _
      · rename_i hst
        have hu : allUp s = true := h.keysUp (by rw [hst]; decide)
        exact ((PanelHolds.enterHalted_of_none hu hh).raceChoice _).replyTo _ _ _
      · rename_i hst
        exact { h with halt := fun _ => rfl, haltActive := fun _ => hst }
  | watch =>
    simp only [takeScanControl, takeScanWatch]
    split
    · exact h.replyTo _ _ _
    · rename_i hh
      rw [Option.not_isSome_iff_eq_none] at hh
      split
      · exact h.replyTo _ _ _
      · exact h.replyTo _ _ _
      · split
        · rename_i hc
          rw [Bool.and_eq_true, Bool.not_eq_true'] at hc
          exact ((PanelHolds.enterWatch hh hc.1 hc.2).raceChoice _).replyTo _ _ _
        · exact h.replyTo _ _ _

theorem PanelHolds.takeLamps {s : State} (h : PanelHolds s) (r : Request) (es : List (Lamp × SwitchMode)) : PanelHolds (takeLamps r es s) := by
  unfold Machine.takeLamps
  split
  · exact h.replyTo _ _ _
  · simp only
    have hup : allUp s = true → allUp (es.foldl switchLamp s) = true := allUp_of_eq (by simp)
    split
    · have hl : (Machine.replyTo r .ok .none (es.foldl switchLamp s)).scan = s.scan := by simp
      have hlit : ({ s.scan with litDemands := s.scan.litDemands + 1 } : Scanner).Sound (allUp s) true :=
        { h with lamps := fun _ _ => Nat.succ_pos _ }
      rw [← hl] at hlit
      exact hlit.mono (allUp_of_eq (by simp)) fun _ => rfl
    · rename_i hn
      refine PanelHolds.replyTo (h.of_le (by simp) hup fun e => ?_) _ _ _
      exact (anyLamp_foldl_switchLamp e).resolve_left hn

theorem PanelHolds.carryOut {s : State} (h : PanelHolds s) (r : Request) (a : Ask) : PanelHolds (carryOut r a s) := by
  cases a with
  | close => exact ((h.replyTo r .ok .none).teardown r.port .closing).of_eq rfl rfl rfl
  | grant n =>
    have hpost : PanelHolds (updDelivery r.port (Delivery.takeGrant n) s) := h.of_eq rfl rfl rfl
    exact (hpost.raceChoice r.port).replyTo _ _ _
  | join g m =>
    simp only [Machine.carryOut, takeJoin]
    split
    · exact h.replyTo _ _ _
    · exact PanelHolds.replyTo (h.of_eq (by simp) (by simp) (by simp)) _ _ _
  | leave g =>
    simp only [Machine.carryOut, takeLeave]
    split
    · have hpost : PanelHolds (post r.port (Delivery.takeLeave g) s) := h.of_eq (by simp) (by simp) (by simp)
      have hleft : PanelHolds (removeMember r.port (post r.port (Delivery.takeLeave g) s) g) :=
        hpost.of_le (by simp) (allUp_of_eq (by rw [removeMember_keys])) anyLamp_removeMember
      exact hleft.replyTo _ _ _
    · exact h.replyTo _ _ _
  | snapshot g =>
    simp only [Machine.carryOut, takeSnapshot]
    split
    · exact h.of_eq (by simp) (by simp) (by simp)
    · exact h.replyTo _ _ _
  | lamps es => exact h.takeLamps r es
  | status => exact h.replyTo _ _ _
  | mapKeys es =>
    have hmap : PanelHolds (es.foldl remapKey s) :=
      h.of_le (by simp) (allUp_foldl_remapKey es) (anyLamp_of_eq (by simp))
    exact hmap.replyTo _ _ _
  | mapLamps es =>
    have hmap : PanelHolds (es.foldl mapLamp s) :=
      h.of_le (by simp) (allUp_of_eq (by simp)) anyLamp_foldl_mapLamp
    exact hmap.replyTo _ _ _
  | groupSetup g delay interval =>
    have hset : PanelHolds (setGroup g { s.groups[g] with delay, interval } s) := h.of_eq rfl rfl rfl
    exact hset.replyTo _ _ _
  | dissolve g =>
    simp only [Machine.carryOut, takeDissolve]
    have hpost : PanelHolds ([Port.p0, Port.p1, Port.p2].foldl (postDissolve g s.groups[g].members)
        (setGroup g { s.groups[g] with members := PerPort.all none } s)) := h.of_eq (by simp) (by simp) (by simp)
    refine PanelHolds.replyTo (PanelHolds.raceChoice ?_ _) _ _ _
    split
    · exact hpost
    · exact hpost.of_le rfl (fun e => e) anyLamp_blank
  | scanSetup su =>
    simp only [Machine.carryOut, takeScanSetup]
    split
    · rename_i hst
      have hidle : s.scan.phase = .idle := by
        by_contra hp
        have := h.active.mpr hp
        rw [hst] at this
        cases this
      have hset : PanelHolds { s with scan := { s.scan with setup := su } } := by
        obtain ⟨hd, hl⟩ := linesAllowed_released h.lines (by rw [hidle]; nofun)
        exact { h with lines := linesAllowed_dark (by rw [hidle]; nofun) hd hl }
      exact hset.replyTo _ _ _
    · exact h.replyTo _ _ _
  | scanControl op => exact h.scanControl r op
  | reset => exact PanelHolds.of_eq (h.replyTo r .ok .none) rfl rfl rfl

theorem PanelHolds.fullReset (s : State) : PanelHolds (fullReset s) := by
  have hu : allUp (Machine.fullReset s) = true := by
    rw [allUp_iff]
    intro k
    have e : (Machine.fullReset s).keys.recs[k] = KeyRec.atReset := getElem_replicate_fin _ k
    rw [e]
    rfl
  have hsc : (Machine.fullReset s).scan = Scanner.atReset := rfl
  unfold PanelHolds
  rw [hsc, hu]
  exact ⟨by decide, fun _ => rfl, fun _ => rfl, by decide, by decide, by decide, ⟨rfl, rfl⟩, nofun⟩

theorem PanelHolds.scannerEvent {s s' : State} (h : PanelHolds s) (he : scannerEvent s = some s') : PanelHolds s' := by
  obtain ⟨_, ⟨hp, rfl⟩ | ⟨hp, rfl⟩ | ⟨hp, rfl⟩⟩ := scannerEvent_cases he
  · have hact : s.scan.state = .active := h.active.mpr (by rw [hp]; decide)
    have hscan : (takeImage s).scan = s.scan := (takeImage_keeps s).1
    rcases afterImage_cases (takeImage s) with ⟨hh, e⟩ | ⟨hh, hw, e⟩ | ⟨hh, _, e⟩ <;> rw [e]
    · obtain ⟨hd, hl⟩ := linesAllowed_released h.lines (by rw [hp]; nofun)
      have hst : (updateIdle (takeImage s)).scan.state = .active := by
        rw [updateIdle]
        simp only [hscan, hact]
      have hd' : (updateIdle (takeImage s)).scan.driveLines = 0 := by
        rw [updateIdle]
        simp only [hscan, hd]
      have hl' : (updateIdle (takeImage s)).scan.lampLines = 0 := by
        rw [updateIdle]
        simp only [hscan, hl]
      have ht : (updateIdle (takeImage s)).scan.watchTimer = s.scan.watchTimer := by
        rw [updateIdle]
        simp only [hscan]
      refine ⟨by simp [hst], fun e => absurd hst e, nofun, fun _ => hh, fun _ => hst, ?_, linesAllowed_dark nofun hd' hl', fun e => ?_⟩
      · simp only [ht, hst]
        rw [h.timer, hact]
      · simp only [hst] at e
        cases e
    · simp only [watchDue, Bool.and_eq_true, Bool.not_eq_true'] at hw
      exact PanelHolds.enterWatch (by simpa [updateIdle] using hh) hw.1.2 hw.2
    · have hst : (beginFrame (updateIdle (takeImage s))).scan.state = .active := by
        rw [beginFrame_scan, updateIdle]
        simp only [hscan, hact]
      have hhalt : (beginFrame (updateIdle (takeImage s))).scan.halt = none := by
        rw [beginFrame_scan, updateIdle]
        simpa using hh
      have ht : (beginFrame (updateIdle (takeImage s))).scan.watchTimer = s.scan.watchTimer := by
        rw [beginFrame_scan, updateIdle]
        simp only [hscan]
      have hph : (beginFrame (updateIdle (takeImage s))).scan.phase = .slot 0 := by rw [beginFrame_scan]
      refine ⟨by simp [hst, hph], fun e => absurd hst e, by simp [hph], by simp [hph], fun _ => hst, ?_, linesAllowed_slot hph rfl rfl, fun e => ?_⟩
      · rw [ht, hst, h.timer, hact]
      · rw [hst] at e
        cases e
  · have hscan : (takeHalt s).scan = s.scan := (takeHalt_keeps s).1
    have hact : s.scan.state = .active := h.active.mpr (by rw [hp]; decide)
    obtain ⟨hd, hl⟩ := linesAllowed_released h.lines (by rw [hp]; nofun)
    have hu : allUp { takeHalt s with scan := { s.scan with phase := .haltRouting } } = true := allUp_takeHalt s
    unfold PanelHolds
    rw [hu]
    exact ⟨by simp [hact], fun _ => rfl, fun _ => rfl, fun _ => h.halt (Or.inl hp), h.haltActive, h.timer,
      linesAllowed_dark nofun hd hl, fun e => by simp only [hact] at e; cases e⟩
  · have hu := h.routing hp
    unfold endHalt
    simp only
    split
    · rename_i x _
      have hc : PanelHolds { Machine.raceChoice x.port (Machine.enterHalted s) with
          scan := { (Machine.raceChoice x.port (Machine.enterHalted s)).scan with halt := none } } := by
        unfold PanelHolds
        rw [raceChoice_scan]
        exact (PanelHolds.enterHalted hu).mono (allUp_of_eq (by simp)) (anyLamp_of_eq (by simp))
      exact hc.of_eq (by simp) (by simp) (by simp)
    · rename_i hn
      exact PanelHolds.enterHalted_of_none hu hn

theorem PanelHolds.endForOpen {s : State} (h : PanelHolds s) (p : Port) : PanelHolds (endForOpen p s) := by
  unfold Machine.endForOpen
  split
  · exact h.teardown p _
  · exact h.of_eq rfl rfl rfl

theorem PanelHolds.takeOpen {s : State} (h : PanelHolds s) (p : Port) (seq : Byte) (payload : List Byte) :
    PanelHolds (takeOpen p seq payload s) := by
  have hend := h.endForOpen p
  have hrefuse : ∀ st : Status, PanelHolds (refuseOpen p st (Machine.endForOpen p s)) := fun _ => hend.of_eq rfl rfl rfl
  unfold Machine.takeOpen
  split
  · exact PanelHolds.fullReset s
  · simp only
    split
    · exact hrefuse _
    · split
      · exact hrefuse _
      · split
        · exact hrefuse _
        · exact hend.of_eq (by simp [beginSession]) (by simp [beginSession]) (by simp [beginSession])

theorem PanelHolds.endSlot {s : State} (h : PanelHolds s) {c : Column} (sense : BitVec 8) (hp : s.scan.phase = .slot c) :
    PanelHolds (endSlot sense c s) := by
  have hact : s.scan.state = .active := h.active.mpr (by rw [hp]; nofun)
  by_cases hc : c.val = 15
  · rw [endSlot_last hc]
    exact ⟨by simp [hact], fun e => absurd hact e, nofun, nofun, h.haltActive, h.timer, linesAllowed_dark nofun rfl rfl,
      fun e => by simp only [hact] at e; cases e⟩
  · have hn : c.val + 1 < 16 := by omega
    rw [endSlot_next (n := ⟨c.val + 1, hn⟩) rfl]
    exact ⟨⟨fun _ => nofun, fun _ => hact⟩, fun e => absurd hact e, nofun, nofun, h.haltActive, h.timer, linesAllowed_slot rfl rfl rfl,
      fun e => nomatch hact.symm.trans e⟩

theorem keptByStep_panel : KeptByStep PanelHolds :=
  KeptByEvent.keptByStep (hf := fun _ _ h => h.of_eq rfl rfl rfl)
    { races := fun _ h => h.of_eq rfl rfl rfl
      choose := fun h _ _ => h.of_eq rfl rfl rfl
      produce := fun p r h => h.of_eq (by simp) (by simp) (by simp)
      scanner := fun h he => h.scannerEvent he
      unhand := fun p h => h.of_eq rfl rfl rfl
      owner := fun {s p x} h _ _ _ => PanelHolds.carryOut (s := setHanded p none s) (h.of_eq rfl rfl rfl) _ _
      unqueue := fun h _ => h.of_eq rfl rfl rfl
      fresh := fun {s p w rest a} h _ _ _ _ _ _ => PanelHolds.carryOut (s := setInbox p rest s) (h.of_eq rfl rfl rfl) _ _
      hand := fun h _ _ => h.of_eq rfl rfl rfl
      reset := fun {s} _ => PanelHolds.fullReset s
      ackByte := fun p a h => by
        unfold takeAckByte
        simp only
        split <;> exact h.of_eq rfl rfl rfl
      oweAck := fun _ h => h.of_eq rfl rfl rfl
      opening := fun {s} p seq payload h => PanelHolds.takeOpen (s := updLink p _ s) (h.of_eq rfl rfl rfl) p seq payload
      noSession := fun _ h => h.of_eq rfl rfl rfl
      accept := fun _ _ h _ _ => h.of_eq rfl rfl rfl
      pending := fun _ h => h.of_eq rfl rfl rfl
      pins := fun _ h => h.of_eq rfl rfl rfl
      snapshotRead := fun _ h => h.of_eq rfl rfl rfl
      slotEnd := fun sense h hp => h.endSlot sense hp
      completion := fun {s} h hp => by
        have hact : s.scan.state = .active := h.active.mpr (by rw [hp]; decide)
        obtain ⟨hd, hl⟩ := linesAllowed_released h.lines (by rw [hp]; nofun)
        exact ⟨by simp [completeFrame, hact], fun e => absurd hact e, nofun, nofun, h.haltActive, h.timer, linesAllowed_dark nofun hd hl, h.lamps⟩
      watchSample := fun {s} sense h hst => by
        unfold takeWatchSample
        split
        · exact PanelHolds.enterActive s
        · exact { h with timer := by simp [hst] }
      litDemand := fun {s n} h hn => by
        unfold takeLitDemand
        split
        · exact PanelHolds.enterActive _
        · rename_i hst
          exact { h with lamps := fun e => by rw [hst] at e; cases e }
        · rename_i hst
          exact { h with lamps := fun e => by rw [hst] at e; cases e }
      routing := fun {s} h => by
        unfold routeNext
        split
        · exact h
        · exact h.of_eq (by simp) (by simp) (by simp)
      lastRetry := fun {s} p h => by
        have h' : PanelHolds (updLink p Link.giveUp s) := h.of_eq rfl rfl rfl
        unfold retryLimitReached
        split
        · exact PanelHolds.fullReset _
        · split
          · exact h'
          · exact h'.teardown p _
          · exact h'.of_eq rfl rfl rfl
      retry := fun p h _ _ => h.of_eq (by simp) (by simp) (by simp)
      holdoff := fun _ h => h.of_eq rfl rfl rfl
      frameEnd := fun p h _ => h.of_eq (by simp) (by simp) (by simp) }

/-- Settles O56: each event that moves the scanner, the keys or the lamps keeps the scanner sound. -/
theorem stepKeepsPanelSound : Obligations.StepKeepsPanelSound := by
  intro s t h hs
  exact (panelSound_iff t).mpr (keptByStep_panel.step ((panelSound_iff s).mp h) hs)

end Sys2Proof.Machine

/-! ## Membership, notice sets and lamps -/

namespace Sys2Proof.Machine

/-- What the soundness of memberships asks of one port, given its modes in the groups. -/
structure PortSound (opened : Bool) (role : Option Role) (mode : Group → Option Mode) (d : Delivery) : Prop where
  member : ∀ g, (mode g).isSome = true → opened = true ∧ inSet d.dissolved g = false
  latched : ∀ g, inSet d.armed g = true ∨ inSet d.changed g = true → mode g = some .latched
  disjoint : ∀ g, ¬(inSet d.armed g = true ∧ inSet d.changed g = true)
  closed : opened = false → d = Delivery.empty
  entry : d.scanEntry.isSome = true → role = some .admin

/-- The soundness of one port's memberships in a state. -/
abbrev PortHolds (s : State) (p : Port) : Prop :=
  PortSound (isOpen s p) (sessionOf s p).role (fun g => memberMode s g p) (s.delivery.get p)

/-- A lamp of a group without members is dark (R56). -/
def LampsDark (s : State) : Prop :=
  ∀ (l : Lamp) (g : Group), s.lamps[l].group = some g → memberless s.groups[g] = true → s.lamps[l].mode.lit = false

/-- The soundness of memberships, port by port. -/
def MembersHold (s : State) : Prop := (∀ p, PortHolds s p) ∧ LampsDark s

theorem membersSound_iff (s : State) : MembersSound s ↔ MembersHold s :=
  ⟨fun ⟨h1, h2, h3, h4, h5, h6⟩ => ⟨fun p => ⟨h1 p, h2 p, h3 p, h4 p, h5 p⟩, h6⟩,
    fun ⟨h, hl⟩ => ⟨fun p => (h p).member, fun p => (h p).latched, fun p => (h p).disjoint, fun p => (h p).closed, fun p => (h p).entry, hl⟩⟩

@[simp] theorem inSet_zero (g : Group) : inSet 0#32 g = false := BitVec.getLsbD_zero

/-! ### One port -/

namespace PortSound

variable {opened : Bool} {role : Option Role} {mode : Group → Option Mode} {d : Delivery}

/-- An empty Delivery Unit, with no membership but in an OPEN session. -/
theorem empty (hm : ∀ g, (mode g).isSome = true → opened = true) : PortSound opened role mode Delivery.empty :=
  ⟨fun g hg => ⟨hm g hg, inSet_zero g⟩, fun g hg => by simp [Delivery.empty] at hg, fun g hg => by simp [Delivery.empty] at hg, fun _ => rfl, nofun⟩

/-- A Delivery Unit with the same notice set, in an OPEN session. -/
theorem sameNotices (h : PortSound opened role mode d) (ho : opened = true) {d' : Delivery} (ha : d'.armed = d.armed) (hc : d'.changed = d.changed)
    (hd : d'.dissolved = d.dissolved) (he : d'.scanEntry = d.scanEntry) : PortSound opened role mode d' :=
  ⟨by rw [hd]; exact h.member, by rw [ha, hc]; exact h.latched, by rw [ha, hc]; exact h.disjoint, fun e => absurd (ho.symm.trans e) (by decide),
    by rw [he]; exact h.entry⟩

theorem afterNotice (h : PortSound opened role mode d) : PortSound opened role mode d.afterNotice where
  member g hg := ⟨(h.member g hg).1, inSet_zero g⟩
  latched g hg := h.latched g (hg.imp_right fun e => by simp [Delivery.afterNotice] at e)
  disjoint g hg := by simp [Delivery.afterNotice] at hg
  closed e := by
    rw [h.closed e]
    rfl
  entry := nofun

theorem afterReport (h : PortSound opened role mode d) (n f : Word16) : PortSound opened role mode (d.afterReport n f) where
  member := h.member
  latched := h.latched
  disjoint := h.disjoint
  closed e := by
    rw [h.closed e]
    rfl
  entry := h.entry

theorem chosen (h : PortSound opened role mode d) {n f : Word16} {d' : Delivery} (hc : Delivery.Chosen n f d d') : PortSound opened role mode d' := by
  rcases hc with rfl | rfl | rfl
  · exact h
  · exact h.afterNotice
  · exact h.afterReport n f

theorem takeScanState (h : PortSound opened role mode d) (ho : opened = true) (hr : role = some .admin) (st : ScanState) :
    PortSound opened role mode (d.takeScanState st) :=
  { h with
    closed := fun e => nomatch ho.symm.trans e
    entry := fun _ => hr }

theorem takeRecord (h : PortSound opened role mode d) (ho : opened = true) (r : EventRec) : PortSound opened role mode (d.takeRecord r) := by
  unfold Delivery.takeRecord
  split <;> exact h.sameNotices ho rfl rfl rfl rfl

theorem takeChanged (h : PortSound opened role mode d) (ho : opened = true) (g : Group) : PortSound opened role mode (d.takeChanged g) := by
  cases ha : inSet d.armed g with
  | false =>
    rw [Delivery.takeChanged_of_not_armed ha]
    exact h
  | true =>
    rw [Delivery.takeChanged_of_armed ha]
    refine ⟨h.member, fun g' hg => ?_, fun g' hg => ?_, fun e => absurd (ho.symm.trans e) (by decide), h.entry⟩
    · simp only [inSet_removeFromSet, inSet_addToSet, Bool.and_eq_true, Bool.or_eq_true, decide_eq_true_eq] at hg
      rcases hg with ⟨hg, _⟩ | hg | rfl
      · exact h.latched g' (Or.inl hg)
      · exact h.latched g' (Or.inr hg)
      · exact h.latched g' (Or.inl ha)
    · simp only [inSet_removeFromSet, inSet_addToSet, Bool.and_eq_true, Bool.or_eq_true, decide_eq_true_eq, Bool.not_eq_true',
        decide_eq_false_iff_not] at hg
      obtain ⟨⟨hg1, hne⟩, hg2 | rfl⟩ := hg
      · exact h.disjoint g' ⟨hg1, hg2⟩
      · exact hne rfl

theorem takeArm (h : PortSound opened role mode d) (ho : opened = true) {g : Group} (hm : mode g = some .latched) :
    PortSound opened role mode (d.takeArm g) := by
  refine ⟨h.member, fun g' hg => ?_, fun g' hg => ?_, fun e => absurd (ho.symm.trans e) (by decide), h.entry⟩
  · simp only [Delivery.takeArm, inSet_removeFromSet, inSet_addToSet, Bool.and_eq_true, Bool.or_eq_true, decide_eq_true_eq] at hg
    rcases hg with (hg | rfl) | ⟨hg, _⟩
    · exact h.latched g' (Or.inl hg)
    · exact hm
    · exact h.latched g' (Or.inr hg)
  · simp only [Delivery.takeArm, inSet_removeFromSet, inSet_addToSet, Bool.and_eq_true, Bool.or_eq_true, decide_eq_true_eq, Bool.not_eq_true',
      decide_eq_false_iff_not] at hg
    obtain ⟨hg1 | rfl, hg2, hne⟩ := hg
    · exact h.disjoint g' ⟨hg1, hg2⟩
    · exact hne rfl

/-- A group that the port is no member of is in no set of its own. -/
theorem not_listed (h : PortSound opened role mode d) {g : Group} (hm : mode g = none) : inSet d.armed g = false ∧ inSet d.changed g = false := by
  constructor
  · rw [← Bool.not_eq_true]
    intro e
    exact nomatch hm.symm.trans (h.latched g (Or.inl e))
  · rw [← Bool.not_eq_true]
    intro e
    exact nomatch hm.symm.trans (h.latched g (Or.inr e))

/-- The port joins a group: its mode in the others stands. -/
theorem join (h : PortSound opened role mode d) (ho : opened = true) {g : Group} (hn : mode g = none) (m : Mode) {mode' : Group → Option Mode}
    (hm : ∀ g', mode' g' = if g' = g then some m else mode g') : PortSound opened role mode' (d.takeJoin g m) := by
  obtain ⟨ha, hc⟩ := h.not_listed hn
  have hne : ∀ g', inSet d.armed g' = true ∨ inSet d.changed g' = true → mode' g' = some .latched := by
    intro g' hg
    have hg' : g' ≠ g := by
      rintro rfl
      rw [ha, hc] at hg
      simp at hg
    rw [hm, if_neg hg']
    exact h.latched g' hg
  have hdis : ∀ g', (mode' g').isSome = true → opened = true ∧ (inSet d.dissolved g' && !decide (g' = g)) = false := by
    intro g' hg
    refine ⟨ho, ?_⟩
    by_cases hg' : g' = g
    · simp [hg']
    · rw [hm, if_neg hg'] at hg
      simp [(h.member g' hg).2]
  cases m with
  | stream =>
    refine ⟨?_, hne, h.disjoint, fun e => absurd (ho.symm.trans e) (by decide), h.entry⟩
    simpa only [Delivery.takeJoin, inSet_removeFromSet] using hdis
  | latched =>
    refine ⟨?_, fun g' hg => ?_, fun g' hg => ?_, fun e => absurd (ho.symm.trans e) (by decide), h.entry⟩
    · simpa only [Delivery.takeJoin, inSet_removeFromSet] using hdis
    · simp only [Delivery.takeJoin, inSet_addToSet, Bool.or_eq_true, decide_eq_true_eq] at hg
      rcases hg with (hg | rfl) | hg
      · exact hne g' (Or.inl hg)
      · rw [hm, if_pos rfl]
      · exact hne g' (Or.inr hg)
    · simp only [Delivery.takeJoin, inSet_addToSet, Bool.or_eq_true, decide_eq_true_eq] at hg
      obtain ⟨hg1 | rfl, hg2⟩ := hg
      · exact h.disjoint g' ⟨hg1, hg2⟩
      · rw [hc] at hg2
        cases hg2

/-- The port leaves a group, and perhaps joins it to its dissolved set. -/
theorem leave (h : PortSound opened role mode d) (ho : opened = true) {g : Group} {mode' : Group → Option Mode}
    (hm : ∀ g', mode' g' = if g' = g then none else mode g') {dissolved : GroupSet}
    (hd : ∀ g', g' ≠ g → inSet dissolved g' = inSet d.dissolved g') :
    PortSound opened role mode' { d with armed := removeFromSet d.armed g, changed := removeFromSet d.changed g, dissolved } := by
  refine ⟨fun g' hg => ?_, fun g' hg => ?_, fun g' hg => ?_, fun e => absurd (ho.symm.trans e) (by decide), h.entry⟩
  · by_cases hg' : g' = g
    · rw [hm, if_pos hg'] at hg
      cases hg
    · rw [hm, if_neg hg'] at hg
      rw [hd g' hg']
      exact h.member g' hg
  · simp only [inSet_removeFromSet, Bool.and_eq_true, Bool.not_eq_true', decide_eq_false_iff_not] at hg
    have hg' : g' ≠ g := hg.elim And.right And.right
    rw [hm, if_neg hg']
    exact h.latched g' (hg.imp And.left And.left)
  · simp only [inSet_removeFromSet, Bool.and_eq_true] at hg
    exact h.disjoint g' ⟨hg.1.1, hg.2.1⟩

/-- The mode in a group that the port is no member of is withdrawn: nothing changes. -/
theorem of_mode_eq (h : PortSound opened role mode d) {mode' : Group → Option Mode} (hm : ∀ g, mode' g = mode g) : PortSound opened role mode' d := by
  rw [show mode' = mode from funext hm]
  exact h

end PortSound

/-! ### The state -/

theorem PortHolds.of_eq {s t : State} {p : Port} (h : PortHolds s p) (hm : sessionOf t p = sessionOf s p) (hg : t.groups = s.groups)
    (hd : t.delivery.get p = s.delivery.get p) : PortHolds t p := by
  have ho : isOpen t p = isOpen s p := by simp only [isOpen, hm]
  unfold PortHolds
  rw [ho, hm, hd]
  exact h.of_mode_eq fun g => by simp only [memberMode, hg]

/-- A state that differs in the Delivery Units at most. -/
theorem MembersHold.of_delivery {s t : State} (h : MembersHold s) (hm : t.mgr.sessions = s.mgr.sessions) (hg : t.groups = s.groups)
    (hl : t.lamps = s.lamps)
    (hd : ∀ p, PortSound (isOpen s p) (sessionOf s p).role (fun g => memberMode s g p) (t.delivery.get p)) : MembersHold t := by
  refine ⟨fun p => ?_, fun l g hlg hg' => ?_⟩
  · unfold PortHolds
    rw [isOpen_congr hm, sessionOf_congr hm]
    exact (hd p).of_mode_eq fun g => by simp only [memberMode, hg]
  · simp only [hl] at hlg ⊢
    simp only [hg] at hg'
    exact h.2 l g hlg hg'

theorem MembersHold.of_eq {s t : State} (h : MembersHold s) (hm : t.mgr.sessions = s.mgr.sessions) (hg : t.groups = s.groups)
    (hl : t.lamps = s.lamps) (hd : t.delivery = s.delivery) : MembersHold t :=
  h.of_delivery hm hg hl fun p => by
    rw [hd]
    exact h.1 p

theorem MembersHold.replyTo {s : State} (h : MembersHold s) (r : Request) (st : Status) (data : ReplyData) :
    MembersHold (replyTo r st data s) := h.of_eq (by simp) (by simp) (by simp) (by simp)

theorem MembersHold.setPort {s : State} (h : MembersHold s) {p : Port} (l : Link) {d : Delivery} {n f : Word16}
    (hd : Delivery.Chosen n f (s.delivery.get p) d) : MembersHold (setPort p l d s) :=
  h.of_delivery rfl rfl rfl fun q => by
    by_cases hq : q = p
    · subst hq
      rw [setPort_delivery_same]
      exact (h.1 q).chosen hd
    · rw [setPort_delivery_ne hq]
      exact h.1 q

theorem MembersHold.raceChoice {s : State} (h : MembersHold s) (p : Port) : MembersHold (raceChoice p s) := by
  rcases raceChoice_spec p s with e | e | ⟨l, d, e, _, _, hd⟩ <;> rw [e]
  · exact h
  · exact h.of_eq rfl rfl rfl rfl
  · exact (h.setPort l hd).of_eq rfl rfl rfl rfl

theorem MembersHold.serve {s : State} (h : MembersHold s) (p : Port) : MembersHold (serve p s) := by
  rcases serve_spec p s with e | ⟨l, d, e, _, _, hd⟩ <;> rw [e]
  · exact h
  · exact h.setPort l hd

/-- A post to a port that keeps its soundness while its session is OPEN. -/
theorem MembersHold.post {s : State} (h : MembersHold s) {p : Port} {f : Delivery → Delivery}
    (hf : isOpen s p = true → PortHolds s p →
      PortSound (isOpen s p) (sessionOf s p).role (fun g => memberMode s g p) (f (s.delivery.get p))) : MembersHold (post p f s) := by
  rcases post_spec p f s with ⟨ho, e⟩ | ⟨_, e⟩ <;> rw [e]
  · refine h.of_delivery rfl rfl rfl fun q => ?_
    by_cases hq : q = p
    · subst hq
      rw [updDelivery_get_same]
      exact hf ho (h.1 q)
    · rw [updDelivery_get_ne hq]
      exact h.1 q
  · exact h

theorem adminPort_eq_some {s : State} {p : Port} (h : adminPort s = some p) : isOpen s p = true ∧ (sessionOf s p).role = some .admin := by
  have := List.find?_some h
  simpa only [Bool.and_eq_true, beq_iff_eq] using this

theorem MembersHold.postScanState {s : State} (h : MembersHold s) : MembersHold (postScanState s) := by
  unfold Machine.postScanState
  split
  · rename_i p hp
    exact h.post fun ho hp' => hp'.takeScanState ho (adminPort_eq_some hp).2 _
  · exact h

theorem MembersHold.enterActive {s : State} (h : MembersHold s) : MembersHold (enterActive s) :=
  MembersHold.postScanState (h.of_eq rfl rfl rfl rfl)

theorem MembersHold.enterWatch {s : State} (h : MembersHold s) : MembersHold (enterWatch s) :=
  MembersHold.postScanState (h.of_eq rfl rfl rfl rfl)

theorem MembersHold.enterHalted {s : State} (h : MembersHold s) : MembersHold (enterHalted s) :=
  MembersHold.postScanState (h.of_eq rfl rfl rfl rfl)

theorem MembersHold.routeTo {s : State} (h : MembersHold s) (t : Transition) (g : Group) (p : Port) : MembersHold (routeTo t g s p) := by
  unfold Machine.routeTo
  split
  · rename_i m _
    refine h.post fun ho hp => ?_
    cases m with
    | stream => exact hp.takeRecord ho _
    | latched =>
      simp only [memberPost]
      split
      · exact hp
      · exact hp.takeChanged ho g
  · exact h

theorem MembersHold.route {s : State} (h : MembersHold s) (t : Transition) : MembersHold (route t s) := by
  unfold Machine.route
  split
  · rename_i g _
    exact ((h.routeTo t g .p0).routeTo t g .p1).routeTo t g .p2
  · exact h

/-! ### Memberships -/

theorem memberless_iff_forall {r : GroupRec} : memberless r = true ↔ ∀ p, r.members.get p = none := by
  simp only [memberless, beq_iff_eq]
  constructor
  · intro h p
    rw [h, PerPort.get_all]
  · intro h
    exact PerPort.ext_get fun p => by rw [h p, PerPort.get_all]

theorem MembersHold.teardown {s : State} (h : MembersHold s) (p : Port) (st : SessionState) : MembersHold (teardown p st s) := by
  refine ⟨fun q => ?_, fun l g hl hg => ?_⟩
  · by_cases hq : q = p
    · subst hq
      unfold PortHolds
      rw [teardown_delivery_same]
      refine PortSound.empty fun g hg => ?_
      simp only [memberMode, teardown_groups, PerPort.get_set_same, Option.isSome_none] at hg
      cases hg
    · have hses := teardown_session_ne hq st s
      have ho : isOpen (Machine.teardown p st s) q = isOpen s q := by simp only [isOpen, hses]
      unfold PortHolds
      rw [ho, hses, teardown_delivery_ne hq]
      exact (h.1 q).of_mode_eq fun g => by simp only [memberMode, teardown_groups, PerPort.get_set_ne _ hq]
  · rw [teardown_groups] at hg
    rw [teardown_lamps] at hl ⊢
    split at hl
    · rename_i he
      rw [if_pos he]
      exact LampRec.blank_lit _
    · rename_i he
      rw [if_neg he]
      refine h.2 l g hl (memberless_iff_forall.mpr fun q => ?_)
      have hnone : memberMode s g p = none := by
        rw [← Option.not_isSome_iff_eq_none]
        intro hm
        exact he ⟨g, hl, by rw [leavesEmpty, hm, hg]; rfl⟩
      by_cases hq : q = p
      · rw [hq]
        exact hnone
      · have := memberless_iff_forall.mp hg q
        rwa [PerPort.get_set_ne _ hq] at this

theorem memberMode_setGroup (g : Group) (r : GroupRec) (s : State) (g' : Group) (q : Port) :
    memberMode (setGroup g r s) g' q = if g' = g then r.members.get q else memberMode s g' q := by
  unfold memberMode
  rw [setGroup, vector_set_get]
  split <;> rfl

theorem MembersHold.takeJoin {s : State} (h : MembersHold s) {p : Port} (ho : isOpen s p = true) {g : Group} (hn : memberMode s g p = none) (m : Mode) :
    MembersHold (Machine.post p (Delivery.takeJoin g m) (setGroup g { s.groups[g] with members := s.groups[g].members.set p (some m) } s)) := by
  have hmode : ∀ g' q, memberMode (setGroup g { s.groups[g] with members := s.groups[g].members.set p (some m) } s) g' q =
      if q = p then (if g' = g then some m else memberMode s g' q) else memberMode s g' q := by
    intro g' q
    rw [memberMode_setGroup, PerPort.get_set]
    by_cases hg : g' = g
    · subst hg
      rw [if_pos rfl, if_pos rfl]
      rfl
    · rw [if_neg hg, if_neg hg, ite_self]
  rw [post_open (s := setGroup g _ s) ho]
  refine ⟨fun q => ?_, fun l g' hl hg => ?_⟩
  · unfold PortHolds
    by_cases hq : q = p
    · subst hq
      rw [updDelivery_get_same]
      exact (h.1 q).join ho hn m fun g' => (hmode g' q).trans (if_pos rfl)
    · rw [updDelivery_get_ne hq]
      exact (h.1 q).of_mode_eq fun g' => (hmode g' q).trans (if_neg hq)
  · refine h.2 l g' hl (memberless_iff_forall.mpr fun q => ?_)
    have hnone := memberless_iff_forall.mp hg q
    have hm := hmode g' q
    rw [show memberMode (setGroup g _ s) g' q = none from hnone] at hm
    by_cases hq : q = p
    · rw [if_pos hq] at hm
      by_cases hgg : g' = g
      · rw [if_pos hgg] at hm
        cases hm
      · rw [if_neg hgg] at hm
        exact hm.symm
    · rw [if_neg hq] at hm
      exact hm.symm

/-- A group loses members: the ports' modes in it, and its lamps if it is then without members. -/
theorem MembersHold.takeLeave {s : State} (h : MembersHold s) {p : Port} (ho : isOpen s p = true) {g : Group}
    (hm : (memberMode s g p).isSome = true) : MembersHold (Machine.removeMember p (Machine.post p (Delivery.takeLeave g) s) g) := by
  rw [post_open ho]
  refine ⟨fun q => ?_, fun l g' hl hg => ?_⟩
  · have hses : sessionOf (Machine.removeMember p (updDelivery p (Delivery.takeLeave g) s) g) q = sessionOf s q := by
      simp only [sessionOf, removeMember_mgr, updDelivery_mgr]
    have hopen : isOpen (Machine.removeMember p (updDelivery p (Delivery.takeLeave g) s) g) q = isOpen s q := by simp only [isOpen, hses]
    unfold PortHolds
    rw [hopen, hses, removeMember_delivery]
    by_cases hq : q = p
    · subst hq
      rw [updDelivery_get_same]
      refine (h.1 q).leave ho (fun g' => ?_) fun _ _ => rfl
      rw [memberMode_removeMember]
      by_cases hg : g' = g
      · rw [if_pos ⟨hg, rfl⟩, if_pos hg]
      · rw [if_neg (fun e => hg e.1), if_neg hg]
        rfl
    · rw [updDelivery_get_ne hq]
      refine (h.1 q).of_mode_eq fun g' => ?_
      rw [memberMode_removeMember, if_neg (fun e => hq e.2)]
      rfl
  · have hlg : s.lamps[l].group = some g' := by
      rw [removeMember_lamps] at hl
      split at hl
      · rw [LampRec.blank_group] at hl
        exact hl
      · exact hl
    rw [removeMember_groups] at hg
    rw [removeMember_lamps]
    by_cases hgg : g' = g
    · subst hgg
      rw [if_pos rfl] at hg
      rw [if_pos ⟨hlg, by rw [leavesEmpty, hg, Bool.and_true]; exact hm⟩]
      exact LampRec.blank_lit _
    · rw [if_neg hgg] at hg
      rw [if_neg (fun e => hgg (Option.some.inj (hlg.symm.trans e.1)))]
      exact h.2 l g' hlg hg

/-- The Delivery Units after a DISSOLVE: each former member whose session is OPEN has taken the post. -/
theorem foldl_postDissolve_delivery (g : Group) (former : PerPort (Option Mode)) (s : State) (q : Port) :
    ([Port.p0, Port.p1, Port.p2].foldl (postDissolve g former) s).delivery.get q =
      if (former.get q).isSome = true ∧ isOpen s q = true then (s.delivery.get q).takeDissolve g else s.delivery.get q := by
  have hopen : ∀ (u : State) (p r : Port), isOpen (postDissolve g former u p) r = isOpen u r := fun u p r => isOpen_congr (by simp) r
  simp only [List.foldl_cons, List.foldl_nil, postDissolve_delivery, hopen]
  cases q <;> simp

theorem MembersHold.takeDissolve {s : State} (h : MembersHold s) (g : Group) {t : State}
    (ht : t = (if memberless s.groups[g] then id else blank g)
      ([Port.p0, Port.p1, Port.p2].foldl (postDissolve g s.groups[g].members)
        (setGroup g { s.groups[g] with members := PerPort.all none } s))) : MembersHold t := by
  have hdelivery : ∀ q, t.delivery.get q = if (memberMode s g q).isSome = true then (s.delivery.get q).takeDissolve g else s.delivery.get q := by
    intro q
    have hd : t.delivery.get q = _ := (by rw [ht]; split <;> rfl : t.delivery.get q = _).trans (foldl_postDissolve_delivery g _ _ q)
    rw [hd]
    by_cases hm : (memberMode s g q).isSome = true
    · rw [if_pos hm, if_pos ⟨hm, ((h.1 q).member g hm).1⟩]
      rfl
    · rw [if_neg hm, if_neg (fun e => hm e.1)]
      rfl
  have hmgr : t.mgr = s.mgr := by
    rw [ht]
    split <;> simp
  have hgroups : t.groups = (setGroup g { s.groups[g] with members := PerPort.all none } s).groups := by
    rw [ht]
    split <;> simp
  have hmode : ∀ g' q, memberMode t g' q = if g' = g then none else memberMode s g' q := by
    intro g' q
    have := memberMode_setGroup g { s.groups[g] with members := PerPort.all none } s g' q
    rw [PerPort.get_all] at this
    rw [← this]
    simp only [memberMode, hgroups]
  refine ⟨fun q => ?_, fun l g' hl hg => ?_⟩
  · unfold PortHolds
    rw [isOpen_congr (s := s) (by rw [hmgr]), sessionOf_congr (s := s) (by rw [hmgr]), hdelivery]
    split
    · rename_i hm
      exact (h.1 q).leave ((h.1 q).member g hm).1 (fun g' => hmode g' q) fun g' hg => by simp [hg]
    · rename_i hm
      refine (h.1 q).of_mode_eq fun g' => ?_
      rw [hmode]
      split
      · rename_i e
        rw [e]
        exact (Option.not_isSome_iff_eq_none.mp hm).symm
      · rfl
  · have hlamps : t.lamps[l] = if memberless s.groups[g] = false ∧ s.lamps[l].group = some g then s.lamps[l].blank else s.lamps[l] := by
      rw [ht]
      cases memberless s.groups[g] with
      | true => simp
      | false =>
        simp only [Bool.false_eq_true, if_false, true_and]
        rw [blank_get]
        simp
    have hlg : s.lamps[l].group = some g' := by
      rw [hlamps] at hl
      split at hl
      · rw [LampRec.blank_group] at hl
        exact hl
      · exact hl
    rw [hlamps]
    split
    · exact LampRec.blank_lit _
    · rename_i hn
      refine h.2 l g' hlg ?_
      by_cases hgg : g' = g
      · subst hgg
        by_contra hm
        exact hn ⟨Bool.eq_false_iff.mpr hm, hlg⟩
      · refine memberless_iff_forall.mpr fun q => ?_
        have := memberless_iff_forall.mp hg q
        have hmq := hmode g' q
        rw [if_neg hgg] at hmq
        exact hmq.symm.trans this

/-! ### The lamps -/

theorem LampsDark.mapLamps {s : State} (h : LampsDark s) (es : List (Lamp × Option Group × Option Key)) : LampsDark (es.foldl mapLamp s) := by
  intro l g hl hg
  rw [(foldl_mapLamp_keeps es s).2.2.1] at hg
  rw [foldl_mapLamp_lamps] at hl ⊢
  cases hf : es.reverse.find? fun e => e.1 == l with
  | some e =>
    obtain ⟨_, _, k⟩ := e
    cases k <;> rfl
  | none =>
    rw [hf] at hl
    exact h l g hl hg

/-- A lamp that a LAMPS entry may switch has no group, or one with a member. -/
theorem lampAccess_of_checked {es : List (Lamp × SwitchMode)} {s : State} {p : Port} (h : (es.findSome? fun e => lampFault s p e.1) = none)
    {e : Lamp × SwitchMode} (he : e ∈ es) : lampAccess s p e.1 = true ∧ lampFollows s e.1 = false := by
  have hn := List.findSome?_eq_none_iff.mp h e he
  unfold lampFault at hn
  cases ha : lampAccess s p e.1 with
  | false => simp [ha] at hn
  | true =>
    cases hf : lampFollows s e.1 with
    | false => exact ⟨rfl, rfl⟩
    | true => simp [ha, hf] at hn

theorem LampsDark.lamps {s : State} (h : LampsDark s) {es : List (Lamp × SwitchMode)} {p : Port}
    (hc : (es.findSome? fun e => lampFault s p e.1) = none) : LampsDark (es.foldl switchLamp s) := by
  intro l g hl hg
  rw [(foldl_switchLamp_keeps es s).2.2.1] at hg
  rw [foldl_switchLamp_group] at hl
  rw [foldl_switchLamp_lamps]
  cases hf : es.reverse.find? fun e => e.1 == l with
  | some e =>
    have hmem : e ∈ es := List.mem_reverse.mp (List.mem_of_find?_eq_some hf)
    have hlamp : e.1 = l := by simpa using List.find?_some hf
    subst hlamp
    have ha := (lampAccess_of_checked hc hmem).1
    unfold lampAccess at ha
    simp only [hl] at ha
    rw [memberMode, memberless_iff_forall.mp hg p] at ha
    cases ha
  | none => exact h l g hl hg

/-! ### Events -/

theorem MembersHold.carryOut {s : State} (h : MembersHold s) {r : Request} (hlive : requestLive s r = true) (a : Ask) :
    MembersHold (carryOut r a s) := by
  have ho : isOpen s r.port = true := by
    simp only [requestLive, isLive, Bool.and_eq_true] at hlive
    exact hlive.1
  cases a with
  | close => exact ((h.replyTo r .ok .none).teardown r.port .closing).of_eq rfl rfl rfl rfl
  | grant n =>
    have hpost : MembersHold (updDelivery r.port (Delivery.takeGrant n) s) := by
      rw [← post_open ho]
      exact h.post fun ho hp => by
        unfold Delivery.takeGrant
        exact hp.sameNotices ho rfl rfl rfl rfl
    exact (hpost.raceChoice r.port).replyTo _ _ _
  | join g m =>
    simp only [Machine.carryOut, Machine.takeJoin]
    split
    · exact h.replyTo _ _ _
    · rename_i hn
      exact (h.takeJoin ho (Option.not_isSome_iff_eq_none.mp hn) m).replyTo _ _ _
  | leave g =>
    simp only [Machine.carryOut, Machine.takeLeave]
    split
    · rename_i hm
      exact (h.takeLeave ho hm).replyTo _ _ _
    · exact h.replyTo _ _ _
  | snapshot g =>
    simp only [Machine.carryOut, takeSnapshot]
    split
    · refine MembersHold.of_eq (s := armStep r.port g s) ?_ rfl rfl rfl rfl
      unfold armStep
      split
      · rename_i hm
        exact h.post fun ho hp => hp.takeArm ho hm
      · exact h
    · exact h.replyTo _ _ _
  | lamps es =>
    simp only [Machine.carryOut, takeLamps]
    split
    · exact h.replyTo _ _ _
    · rename_i hc
      have hl : MembersHold (es.foldl switchLamp s) :=
        ⟨fun p => (h.1 p).of_eq (sessionOf_congr (by simp) p) (by simp) (by simp), h.2.lamps hc⟩
      split
      · exact (hl.replyTo r .ok .none).of_eq rfl rfl rfl rfl
      · exact hl.replyTo _ _ _
  | status => exact h.replyTo _ _ _
  | mapKeys es => exact MembersHold.replyTo (h.of_eq (by simp) (by simp) (by simp) (by simp)) _ _ _
  | mapLamps es =>
    have hl : MembersHold (es.foldl mapLamp s) :=
      ⟨fun p => (h.1 p).of_eq (sessionOf_congr (by simp) p) (by simp) (by simp), h.2.mapLamps es⟩
    exact hl.replyTo _ _ _
  | groupSetup g delay interval =>
    have hmode : ∀ g' q, memberMode (setGroup g { s.groups[g] with delay, interval } s) g' q = memberMode s g' q := by
      intro g' q
      rw [memberMode_setGroup]
      split
      · rename_i e
        rw [e]
        rfl
      · rfl
    have hset : MembersHold (setGroup g { s.groups[g] with delay, interval } s) := by
      refine ⟨fun p => (h.1 p).of_mode_eq fun g' => hmode g' p, fun l g' hl hg => ?_⟩
      refine h.2 l g' hl (memberless_iff_forall.mpr fun q => ?_)
      exact (hmode g' q).symm.trans (memberless_iff_forall.mp hg q)
    exact hset.replyTo _ _ _
  | dissolve g =>
    refine ((h.takeDissolve g rfl).raceChoice r.port).replyTo r .ok (.removed (memberCount s.groups[g])) |>.of_eq ?_ ?_ ?_ ?_ <;>
      simp only [Machine.carryOut, Machine.takeDissolve] <;> split <;> rfl
  | scanSetup su =>
    simp only [Machine.carryOut, takeScanSetup]
    split
    · have hset : MembersHold { s with scan := { s.scan with setup := su } } := h.of_eq rfl rfl rfl rfl
      exact hset.replyTo _ _ _
    · exact h.replyTo _ _ _
  | scanControl op =>
    cases op with
    | start =>
      simp only [Machine.carryOut, takeScanControl, takeScanStart]
      split
      · exact h.replyTo _ _ _
      · split
        · exact h.replyTo _ _ _
        · exact (h.enterActive.raceChoice _).replyTo _ _ _
        · exact (h.enterActive.raceChoice _).replyTo _ _ _
    | halt =>
      simp only [Machine.carryOut, takeScanControl, takeScanHalt]
      split
      · exact h.replyTo _ _ _
      · split
        · exact h.replyTo _ _ _
        · exact (h.enterHalted.raceChoice _).replyTo _ _ _
        · exact h.of_eq rfl rfl rfl rfl
    | watch =>
      simp only [Machine.carryOut, takeScanControl, takeScanWatch]
      split
      · exact h.replyTo _ _ _
      · split
        · exact h.replyTo _ _ _
        · exact h.replyTo _ _ _
        · split
          · exact (h.enterWatch.raceChoice _).replyTo _ _ _
          · exact h.replyTo _ _ _
  | reset => exact (h.replyTo r .ok .none).of_eq rfl rfl rfl rfl

theorem MembersHold.fullReset (s : State) : MembersHold (fullReset s) := by
  have hmode : ∀ g q, memberMode (Machine.fullReset s) g q = none := by
    intro g q
    have e : (Machine.fullReset s).groups[g] = GroupRec.atReset := getElem_replicate_fin _ g
    rw [memberMode, e]
    exact PerPort.get_all _ _
  refine ⟨fun p => ?_, fun l g hl _ => ?_⟩
  · have hd : (Machine.fullReset s).delivery.get p = Delivery.empty := PerPort.get_all _ p
    unfold PortHolds
    rw [hd]
    exact PortSound.empty fun g hg => by simp [hmode] at hg
  · have e : (Machine.fullReset s).lamps[l] = LampRec.atReset := getElem_replicate_fin _ l
    rw [e]
    rfl

theorem MembersHold.scannerEvent {s s' : State} (h : MembersHold s) (he : scannerEvent s = some s') : MembersHold s' := by
  obtain ⟨_, ⟨_, rfl⟩ | ⟨_, rfl⟩ | ⟨_, rfl⟩⟩ := scannerEvent_cases he
  · have hi : MembersHold (updateIdle (takeImage s)) := h.of_eq (by simp [updateIdle]) (by simp [updateIdle]) (by simp [updateIdle]) (by simp [updateIdle])
    generalize takeImage s = u at hi
    rcases afterImage_cases u with ⟨_, e⟩ | ⟨_, _, e⟩ | ⟨_, _, e⟩ <;> rw [e]
    · exact hi.of_eq rfl rfl rfl rfl
    · exact hi.enterWatch
    · exact hi.of_eq rfl rfl rfl rfl
  · exact h.of_eq (by simp) (by simp) (by simp) (by simp)
  · unfold endHalt
    simp only
    split
    · rename_i x _
      exact (h.enterHalted.raceChoice x.port).of_eq (by simp) (by simp) (by simp) (by simp)
    · exact h.enterHalted

/-- A session that is not OPEN gives way to another that is not. -/
theorem MembersHold.setSession {s : State} (h : MembersHold s) {p : Port} (hn : isOpen s p = false) (x : Session) :
    MembersHold (Machine.setSession p x s) := by
  refine ⟨fun q => ?_, h.2⟩
  by_cases hq : q = p
  · subst hq
    unfold PortHolds
    have hd : (Machine.setSession q x s).delivery.get q = Delivery.empty := (h.1 q).closed hn
    rw [hd]
    refine PortSound.empty fun g hg => ?_
    exact absurd (((h.1 q).member g hg).1.symm.trans hn) (by decide)
  · exact (h.1 q).of_eq (sessionOf_setSession_ne hq x s) rfl rfl

theorem MembersHold.endForOpen {s : State} (h : MembersHold s) (p : Port) :
    MembersHold (endForOpen p s) ∧ isOpen (Machine.endForOpen p s) p = false := by
  unfold Machine.endForOpen
  split
  · exact ⟨h.teardown p .closed, by rw [isOpen, teardown_session_same]; rfl⟩
  · rename_i ho
    exact ⟨h.setSession (Bool.eq_false_iff.mpr ho) _, by rw [isOpen, sessionOf_setSession_same]; rfl⟩

theorem MembersHold.takeOpen {s : State} (h : MembersHold s) (p : Port) (seq : Byte) (payload : List Byte) :
    MembersHold (takeOpen p seq payload s) := by
  obtain ⟨hend, hclosed⟩ := h.endForOpen p
  have hrefuse : ∀ st : Status, MembersHold (refuseOpen p st (Machine.endForOpen p s)) := fun _ => hend.of_eq rfl rfl rfl rfl
  unfold Machine.takeOpen
  split
  · exact MembersHold.fullReset s
  · simp only
    split
    · exact hrefuse _
    · split
      · exact hrefuse _
      · rename_i o _
        split
        · exact hrefuse _
        · exact (hend.setSession hclosed
            { state := .open, role := some o.role, tag := some o.tag, identity := some (nextIdentity (sessionOf (Machine.endForOpen p s) p)) }).of_eq
            (by simp [beginSession]) (by simp [beginSession]) (by simp [beginSession]) (by simp [beginSession])

theorem keptByStep_members : KeptByStep MembersHold :=
  KeptByEvent.keptByStep (hf := fun _ _ h => h.of_eq rfl rfl rfl rfl)
    { races := fun _ h => h.of_eq rfl rfl rfl rfl
      choose := fun h _ hc => h.setPort _ (choice_spec hc).2
      produce := fun p r h => h.of_eq (by simp) (by simp) (by simp) (by simp)
      scanner := fun h he => h.scannerEvent he
      unhand := fun p h => h.of_eq rfl rfl rfl rfl
      owner := fun {s p x} h _ _ hlive => MembersHold.carryOut (s := setHanded p none s) (h.of_eq rfl rfl rfl rfl) hlive _
      unqueue := fun h _ => h.of_eq rfl rfl rfl rfl
      fresh := fun {s p w rest a} h _ hlive _ _ _ _ => MembersHold.carryOut (s := setInbox p rest s) (h.of_eq rfl rfl rfl rfl) hlive _
      hand := fun h _ _ => h.of_eq rfl rfl rfl rfl
      reset := fun {s} _ => MembersHold.fullReset s
      ackByte := fun {s} p a h => by
        unfold takeAckByte
        simp only
        split
        · rename_i hc
          have hu : MembersHold (updLink p (Link.readAck a) s) := h.of_eq rfl rfl rfl rfl
          refine hu.setSession ?_ _
          simp only [ackEndsClosing, Bool.and_eq_true, beq_iff_eq] at hc
          rw [isOpen, show sessionOf (updLink p (Link.readAck a) s) p = sessionOf s p from rfl, hc.1]
          rfl
        · exact h.of_eq rfl rfl rfl rfl
      oweAck := fun _ h => h.of_eq rfl rfl rfl rfl
      opening := fun {s} p seq payload h => MembersHold.takeOpen (s := updLink p _ s) (h.of_eq rfl rfl rfl rfl) p seq payload
      noSession := fun _ h => h.of_eq rfl rfl rfl rfl
      accept := fun _ _ h _ _ => h.of_eq rfl rfl rfl rfl
      pending := fun _ h => h.of_eq rfl rfl rfl rfl
      pins := fun _ h => h.of_eq rfl rfl rfl rfl
      snapshotRead := fun _ h => h.of_eq rfl rfl rfl rfl
      slotEnd := fun {s c} sense h _ => h.of_eq (by simp) (by simp) (by simp) (by simp)
      completion := fun h _ => h.of_eq rfl rfl rfl rfl
      watchSample := fun {s} sense h _ => by
        unfold takeWatchSample
        split
        · exact h.enterActive
        · exact h.of_eq rfl rfl rfl rfl
      litDemand := fun {s n} h _ => by
        have h' : MembersHold { s with scan := { s.scan with litDemands := n } } := h.of_eq rfl rfl rfl rfl
        unfold takeLitDemand
        split
        · exact h'.enterActive
        all_goals exact h'
      routing := fun {s} h => by
        unfold routeNext
        split
        · exact h
        · rename_i tr rest _
          exact MembersHold.route (s := { s with disp := { s.disp with waiting := rest } }) (h.of_eq rfl rfl rfl rfl) tr
      lastRetry := fun {s} p h => by
        have h' : MembersHold (updLink p Link.giveUp s) := h.of_eq rfl rfl rfl rfl
        unfold retryLimitReached
        split
        · exact MembersHold.fullReset _
        · split
          · exact h'
          · exact h'.teardown p _
          · rename_i hst
            exact h'.setSession (by rw [isOpen, hst]; rfl) _
      retry := fun {s} p h _ _ => MembersHold.serve (s := updLink p _ s) (h.of_eq rfl rfl rfl rfl) p
      holdoff := fun _ h => h.of_eq rfl rfl rfl rfl
      frameEnd := fun {s} p h _ => MembersHold.serve (s := updLink p _ s) (h.of_eq rfl rfl rfl rfl) p }

/-- Settles O58: each event that changes a membership, a session, a notice set or a lamp keeps the ports and the lamps sound. -/
theorem stepKeepsMembersSound : Obligations.StepKeepsMembersSound := by
  intro s t h hs
  exact (membersSound_iff t).mpr (keptByStep_members.step ((membersSound_iff s).mp h) hs)

end Sys2Proof.Machine

/-! ## A step ends with nothing left to follow -/

namespace Sys2Proof.Machine

/-! ### What follows inside a step comes to an end -/

theorem stagesLeft_of_dark {ph : Phase} (h : ph ≠ .imageWaiting ∧ ph ≠ .haltWaiting ∧ ph ≠ .haltRouting) : ph.stagesLeft = 0 := by
  obtain ⟨h1, h2, h3⟩ := h
  cases ph with
  | idle | slot _ | frameEnd => rfl
  | imageWaiting => exact absurd rfl h1
  | haltWaiting => exact absurd rfl h2
  | haltRouting => exact absurd rfl h3

/-- MAP KEYS takes no transition off the Dispatcher's list. -/
theorem remapKey_waiting {s : State} (e : Key × Option Group) (h : s.disp.waiting ≠ []) : (remapKey s e).disp.waiting ≠ [] := by
  obtain ⟨k, g⟩ := e
  by_cases hg : s.keys.recs[k].group = g
  · rw [remapKey_same hg]
    exact h
  · cases hh : s.keys.recs[k].state.held with
    | false =>
      rw [remapKey_not_held hg hh]
      exact h
    | true =>
      rw [remapKey_held hg hh]
      simp

theorem foldl_remapKey_waiting (es : List (Key × Option Group)) {s : State} (h : s.disp.waiting ≠ []) :
    (es.foldl remapKey s).disp.waiting ≠ [] := by
  induction es generalizing s with
  | nil => exact h
  | cons e es ih => exact ih (remapKey_waiting e h)

/-- Of the owners' parts that of SCAN CONTROL alone moves the scanner or its HALT in flight. -/
theorem carryOut_place {a : Ask} (ha : ∀ op, a ≠ .scanControl op) (r : Request) (s : State) :
    (carryOut r a s).scan.phase = s.scan.phase ∧ (carryOut r a s).scan.halt = s.scan.halt := by
  cases a with
  | close => simp [carryOut, takeClose]
  | grant n => simp [carryOut, takeGrant]
  | join g m =>
    simp only [carryOut, takeJoin]
    split <;> simp
  | leave g =>
    simp only [carryOut, takeLeave]
    split <;> simp
  | snapshot g =>
    simp only [carryOut, takeSnapshot]
    split <;> simp
  | lamps es =>
    simp only [carryOut, takeLamps]
    split
    · simp
    · split <;> simp
  | status => simp [carryOut, takeStatus]
  | mapKeys es => simp [carryOut, takeMapKeys]
  | mapLamps es => simp [carryOut, takeMapLamps]
  | groupSetup g delay interval => simp [carryOut, takeGroupSetup]
  | dissolve g =>
    simp only [carryOut, takeDissolve]
    split <;> simp
  | scanSetup su =>
    simp only [carryOut, takeScanSetup]
    split <;> simp
  | scanControl op => exact absurd rfl (ha op)
  | reset => simp [carryOut, takeReset]

/-- An owner's part leaves the scanner at its stage, or puts it where no stage is left. -/
theorem carryOut_stages (r : Request) (a : Ask) (s : State) : (carryOut r a s).scan.phase.stagesLeft ≤ s.scan.phase.stagesLeft := by
  have hsame : ∀ {t : State}, t.scan.phase = s.scan.phase → t.scan.phase.stagesLeft ≤ s.scan.phase.stagesLeft := fun e => by rw [e]
  by_cases ha : ∀ op, a ≠ .scanControl op
  · exact hsame (carryOut_place ha r s).1
  · obtain ⟨op, rfl⟩ : ∃ op, a = .scanControl op := by simpa using ha
    cases op with
    | start =>
      simp only [carryOut, takeScanControl, takeScanStart, scanReply]
      split
      · exact hsame (by simp)
      · split
        · exact hsame (by simp)
        · simp [enterActive_scan, Phase.stagesLeft]
        · simp [enterActive_scan, Phase.stagesLeft]
    | halt =>
      simp only [carryOut, takeScanControl, takeScanHalt, scanReply]
      split
      · exact hsame (by simp)
      · split
        · exact hsame (by simp)
        · simp [enterHalted_scan, Phase.stagesLeft]
        · exact hsame rfl
    | watch =>
      simp only [carryOut, takeScanControl, takeScanWatch, scanReply]
      split
      · exact hsame (by simp)
      · split
        · exact hsame (by simp)
        · exact hsame (by simp)
        · split
          · simp [enterWatch_scan, Phase.stagesLeft]
          · exact hsame (by simp)

/-- An owner's part ends no wait at the Dispatcher. -/
theorem carryOut_disp (r : Request) (a : Ask) (s : State) :
    (s.disp.waiting ≠ [] → (carryOut r a s).disp.waiting ≠ []) ∧
      ∀ p, (carryOut r a s).disp.snapshots.get p = none → s.disp.snapshots.get p = none := by
  have hsame : ∀ {t : State}, t.disp = s.disp →
      (s.disp.waiting ≠ [] → t.disp.waiting ≠ []) ∧ ∀ p, t.disp.snapshots.get p = none → s.disp.snapshots.get p = none :=
    fun e => by rw [e]; exact ⟨id, fun _ => id⟩
  cases a with
  | close => exact hsame (by simp [carryOut, takeClose])
  | grant n => exact hsame (by simp [carryOut, takeGrant])
  | join g m =>
    apply hsame
    simp only [carryOut, takeJoin]
    split <;> simp
  | leave g =>
    apply hsame
    simp only [carryOut, takeLeave]
    split <;> simp
  | snapshot g =>
    simp only [carryOut, takeSnapshot]
    split
    · refine ⟨by simp, fun p hp => ?_⟩
      by_cases hq : p = r.port
      · rw [hq, setSnapshot_get_same] at hp
        cases hp
      · rw [setSnapshot_get_ne hq] at hp
        simpa using hp
    · exact hsame (by simp)
  | lamps es =>
    apply hsame
    simp only [carryOut, takeLamps]
    split
    · simp
    · split <;> simp
  | status => exact hsame (by simp [carryOut, takeStatus])
  | mapKeys es =>
    refine ⟨fun h => ?_, fun p => ?_⟩
    · simp only [carryOut, takeMapKeys, replyTo_disp]
      exact foldl_remapKey_waiting es h
    · simp [carryOut, takeMapKeys]
  | mapLamps es => exact hsame (by simp [carryOut, takeMapLamps])
  | groupSetup g delay interval => exact hsame (by simp [carryOut, takeGroupSetup])
  | dissolve g =>
    apply hsame
    simp only [carryOut, takeDissolve]
    split <;> simp
  | scanSetup su =>
    apply hsame
    simp only [carryOut, takeScanSetup]
    split <;> simp
  | scanControl op =>
    apply hsame
    cases op with
    | start =>
      simp only [carryOut, takeScanControl, takeScanStart, scanReply]
      split
      · simp
      · split <;> simp
    | halt =>
      simp only [carryOut, takeScanControl, takeScanHalt, scanReply]
      split
      · simp
      · split <;> simp
    | watch =>
      simp only [carryOut, takeScanControl, takeScanWatch, scanReply]
      split
      · simp
      · split
        · simp
        · simp
        · split <;> simp
  | reset => exact hsame (by simp [carryOut, takeReset])

/-- An owner's part hands nothing on and queues nothing. -/
theorem carryOut_waiting (r : Request) (a : Ask) (s : State) :
    (carryOut r a s).mgr.handed = s.mgr.handed ∧
      ∀ p, ((carryOut r a s).mgr.inbox.get p).length ≤ (s.mgr.inbox.get p).length := by
  by_cases hc : a = .close
  · subst hc
    have hm : (carryOut r .close s).mgr = (teardown r.port .closing (replyTo r .ok .none s)).mgr := rfl
    rw [hm, teardown_mgr, replyTo_mgr]
    refine ⟨rfl, fun p => ?_⟩
    simp only [PerPort.get_set]
    split
    · exact Nat.zero_le _
    · exact le_rfl
  · by_cases hr : a = .reset
    · subst hr
      have hm : (carryOut r .reset s).mgr =
          { s.mgr with resetInFlight := some (r.port, r.session), inbox := passOthers r.port s.mgr.inbox } := by
        simp only [carryOut, takeReset, replyTo_mgr]
      rw [hm]
      refine ⟨rfl, fun p => ?_⟩
      by_cases hp : p = r.port
      · subst hp
        simp only [passOthers_get_same, le_rfl]
      · simp only [passOthers_get_ne hp, List.length_map, le_rfl]
    · rw [carryOut_mgr hc hr]
      exact ⟨rfl, fun _ => le_rfl⟩

theorem internalMeasure_congr {s t : State} (hm : t.mgr = s.mgr) (hs : t.scan = s.scan) : internalMeasure t = internalMeasure s := by
  simp only [internalMeasure, portMeasure, hm, hs]

theorem internalMeasure_carryOut (r : Request) (a : Ask) (s : State) : internalMeasure (carryOut r a s) ≤ internalMeasure s := by
  obtain ⟨hh, hi⟩ := carryOut_waiting r a s
  have hs := carryOut_stages r a s
  have h0 := hi .p0
  have h1 := hi .p1
  have h2 := hi .p2
  simp only [internalMeasure, portMeasure, hh]
  omega

theorem internalMeasure_takeByOwner (x : Handed) (s : State) : internalMeasure (takeByOwner x s) ≤ internalMeasure s := by
  unfold takeByOwner
  split
  · exact internalMeasure_carryOut _ _ s
  · exact le_rfl

/-- A change at one port changes the bound by what it changes of that port's part. -/
theorem internalMeasure_port {s t : State} {p : Port} (hs : t.scan = s.scan) (hi : ∀ q, q ≠ p → t.mgr.inbox.get q = s.mgr.inbox.get q)
    (hh : ∀ q, q ≠ p → t.mgr.handed.get q = s.mgr.handed.get q) :
    internalMeasure t + portMeasure s p = internalMeasure s + portMeasure t p := by
  have hne : ∀ q, q ≠ p → portMeasure t q = portMeasure s q := fun q hq => by simp only [portMeasure, hi q hq, hh q hq]
  unfold internalMeasure
  rw [hs]
  cases p with
  | p0 =>
    rw [hne .p1 (by decide), hne .p2 (by decide)]
    omega
  | p1 =>
    rw [hne .p0 (by decide), hne .p2 (by decide)]
    omega
  | p2 =>
    rw [hne .p0 (by decide), hne .p1 (by decide)]
    omega

/-- A request leaves its owner's place. -/
theorem internalMeasure_unhand {s : State} {p : Port} {x : Handed} (h : s.mgr.handed.get p = some x) :
    internalMeasure (setHanded p none s) + 1 = internalMeasure s := by
  have hm := internalMeasure_port (s := s) (t := setHanded p none s) (p := p) rfl (fun _ _ => rfl) fun q hq => setHanded_handed_ne hq none s
  have h0 : portMeasure (setHanded p none s) p + 1 = portMeasure s p := by
    simp only [portMeasure, setHanded_handed_same, setHanded_inbox, h, Option.isSome_none, Option.isSome_some, Bool.false_eq_true, if_false, if_true]
  omega

/-- A request comes to its owner's place. -/
theorem internalMeasure_hand (s : State) (p : Port) (x : Handed) : internalMeasure (setHanded p (some x) s) ≤ internalMeasure s + 1 := by
  have hm := internalMeasure_port (s := s) (t := setHanded p (some x) s) (p := p) rfl (fun _ _ => rfl) fun q hq => setHanded_handed_ne hq _ s
  have h0 : portMeasure (setHanded p (some x) s) p ≤ portMeasure s p + 1 := by
    simp only [portMeasure, setHanded_handed_same, setHanded_inbox, Option.isSome_some, if_true]
    omega
  omega

/-- A request leaves the Session Manager's queue. -/
theorem internalMeasure_unqueue {s : State} {p : Port} {w : Queued} {rest : List Queued} (h : s.mgr.inbox.get p = w :: rest) :
    internalMeasure (setInbox p rest s) + 2 = internalMeasure s := by
  have hm := internalMeasure_port (s := s) (t := setInbox p rest s) (p := p) rfl (fun q hq => setInbox_inbox_ne hq rest s) fun _ _ => rfl
  have h0 : portMeasure (setInbox p rest s) p + 2 = portMeasure s p := by
    have hh : (setInbox p rest s).mgr.handed = s.mgr.handed := rfl
    rw [portMeasure, portMeasure, setInbox_inbox_same, hh, h, List.length_cons]
    omega
  omega

theorem internalMeasure_takeRequest (w : Queued) (s : State) : internalMeasure (takeRequest w s) ≤ internalMeasure s + 1 := by
  rcases takeRequest_cases w s with e | ⟨st, e⟩ | ⟨a, _, _, _, _, e⟩ <;> rw [e]
  · exact Nat.le_succ _
  · rw [internalMeasure_congr (s := s) (by simp) (by simp)]
    exact Nat.le_succ _
  · unfold handOn
    split
    · exact (internalMeasure_takeByOwner _ s).trans (Nat.le_succ _)
    · exact internalMeasure_hand s _ _

theorem internalMeasure_scanner {s s' : State} (h : scannerEvent s = some s') : internalMeasure s' < internalMeasure s := by
  have hm := scannerEvent_mgr h
  have hstages : s'.scan.phase.stagesLeft < s.scan.phase.stagesLeft := by
    obtain ⟨_, ⟨hp, rfl⟩ | ⟨hp, rfl⟩ | ⟨hp, rfl⟩⟩ := scannerEvent_cases h <;> rw [hp]
    · rcases afterImage_cases (takeImage s) with ⟨_, e⟩ | ⟨_, _, e⟩ | ⟨_, _, e⟩ <;> rw [e]
      · simp [Phase.stagesLeft]
      · simp [enterWatch_scan, Phase.stagesLeft]
      · simp [beginFrame_scan, Phase.stagesLeft]
    · simp [Phase.stagesLeft]
    · unfold endHalt
      simp only
      split <;> simp [enterHalted_scan, Phase.stagesLeft]
  simp only [internalMeasure, portMeasure, hm]
  omega

/-- Each event that follows without a command brings the bound down. -/
theorem internalMeasure_internal {s s' : State} (h : internal s = some s') : internalMeasure s' < internalMeasure s := by
  obtain ⟨u, n, rfl, hu⟩ := internal_cases h
  have he : internalMeasure { u with races := n } = internalMeasure u := rfl
  rw [he]
  rcases hu with hu | hu | hu
  · exact internalMeasure_scanner hu
  · obtain ⟨p, x, hx, _, rfl⟩ := ownerEvent_cases hu
    have h1 := internalMeasure_takeByOwner x (setHanded p none s)
    have h2 := internalMeasure_unhand hx
    omega
  · obtain ⟨p, w, rest, _, hi, rfl⟩ := managerEvent_cases hu
    have h1 := internalMeasure_takeRequest w (setInbox p rest s)
    have h2 := internalMeasure_unqueue hi
    omega

theorem internalMeasure_serveAll (s : State) : internalMeasure (serveAll s) = internalMeasure s :=
  internalMeasure_congr (by simp) (by simp)

/-- With as many events as the bound allows, what follows comes to its end. -/
theorem internal_settle {n : Nat} {s : State} (h : internalMeasure s ≤ n) : internal (settle n s) = none := by
  induction n generalizing s with
  | zero =>
    cases hi : internal s with
    | none => exact hi
    | some s' =>
      have := internalMeasure_internal hi
      omega
  | succ n ih =>
    unfold settle
    split
    · rename_i s' hi
      have := internalMeasure_internal hi
      exact ih (by rw [internalMeasure_serveAll]; omega)
    · assumption

/-- No IDLE transmitter has a frame to choose. -/
def Served (s : State) : Prop := ∀ p : Port, lineIdle p s = true → chooseFrame p s = none

theorem served_serveAll (s : State) : Served (serveAll s) := serveAll_settles s

theorem served_settle {n : Nat} {s : State} (h : Served s) : Served (settle n s) := by
  induction n generalizing s with
  | zero => exact h
  | succ n ih =>
    unfold settle
    split
    · exact ih (served_serveAll _)
    · exact h

theorem settled_finish (s : State) : Settled (finish s) := ⟨internal_settle le_rfl, served_settle (served_serveAll s)⟩

theorem settled_finishRequest (p : Port) (s : State) : Settled (finishRequest p s) :=
  ⟨internal_serveAll_none (internal_settle le_rfl), served_serveAll _⟩

theorem settled_fullReset (s : State) : Settled (fullReset s) := by
  have hl : ∀ p, (fullReset s).link.get p = Link.atReset := fun p => PerPort.get_all _ p
  have hd : ∀ p, (fullReset s).delivery.get p = Delivery.empty := fun p => PerPort.get_all _ p
  refine ⟨internal_eq_none.mpr ⟨scannerEvent_eq_none.mpr (Or.inr ⟨nofun, nofun, nofun⟩), ownerEvent_eq_none.mpr fun p => ?_,
    managerEvent_eq_none.mpr fun p => ?_⟩, fun p _ => ?_⟩
  · have hh : (fullReset s).mgr.handed.get p = none := PerPort.get_all _ p
    rw [readyRequest, hh]
    rfl
  · have hi : (fullReset s).mgr.inbox.get p = [] := PerPort.get_all _ p
    unfold nextRequest
    rw [hi]
    split
    · rename_i e
      cases e
    · rfl
  · rw [chooseFrame_eq_none, hl, hd]
    rfl

/-! ### Events after which nothing follows -/

/-- A state in which one port's units differ, and the sessions, is settled once that port's transmitter has been served. -/
theorem Settled.serve {s t : State} (h : Settled s) {p : Port} (hs : t.scan = s.scan) (hd : t.disp = s.disp)
    (hh : t.mgr.handed = s.mgr.handed) (hi : t.mgr.inbox = s.mgr.inbox) (hlink : ∀ q, q ≠ p → t.link.get q = s.link.get q)
    (hdel : ∀ q, q ≠ p → t.delivery.get q = s.delivery.get q) : Settled (serve p t) := by
  refine ⟨internal_none_congr (by simp [hd]) (by simp [hs]) (by simp [hs]) (by simp [hh]) (by simp [hi]) h.1, fun q hq => ?_⟩
  by_cases hqp : q = p
  · subst hqp
    exact serve_settles q t hq
  · refine chooseFrame_none_congr (s := s) (by rw [serve_link_ne hqp, hlink q hqp]) (by rw [serve_delivery_ne hqp, hdel q hqp]) (h.2 q ?_)
    rw [lineIdle_serve_ne hqp] at hq
    rw [lineIdle, ← hlink q hqp]
    exact hq

theorem Settled.serve_updLink {s : State} (h : Settled s) (p : Port) (f : Link → Link) : Settled (Machine.serve p (updLink p f s)) :=
  h.serve rfl rfl rfl rfl (fun _ hq => updLink_get_ne hq f s) fun _ _ => rfl

/-- A settled state stays settled when neither what follows nor what is chosen can tell the difference. -/
theorem Settled.congr {s t : State} (h : Settled s) (hi : internal s = none → internal t = none)
    (hc : ∀ q n m, choice n m (s.link.get q) (s.delivery.get q) = none → choice n m (t.link.get q) (t.delivery.get q) = none)
    (hl : ∀ q, lineIdle q t = lineIdle q s) : Settled t :=
  ⟨hi h.1, fun q hq => by
    have hn := h.2 q (by rw [← hl q]; exact hq)
    rw [chooseFrame_eq_none] at hn ⊢
    exact choice_none_congr (hc q _ _ hn)⟩

/-- Neither does the framer stand in a rank's way. -/
theorem choice_none_framer {n m : Word16} {l : Link} {d : Delivery} (fr : Framer) (h : choice n m l d = none) :
    choice n m { l with framer := fr } d = none := by
  have h1 : rank1 { l with framer := fr } = (rank1 l).map fun l => { l with framer := fr } := by
    unfold rank1
    cases l.burst with
    | none => rfl
    | some i => cases hi : l.resend[i]? <;> simp [hi, Link.send]
  have h2 : rank2 { l with framer := fr } = (rank2 l).map fun l => { l with framer := fr } := by
    unfold rank2
    cases l.openRefused <;> rfl
  have h3 : rank3 { l with framer := fr } = (rank3 l).map fun l => { l with framer := fr } := by
    unfold rank3
    simp only
    split <;> rfl
  have h5 : rank5 { l with framer := fr } = (rank5 l).map fun l => { l with framer := fr } := by
    unfold rank5 Link.ackDue
    simp only
    split <;> rfl
  have h4 : rank4 n m { l with framer := fr } d = (rank4 n m l d).map fun x => ({ x.1 with framer := fr }, x.2) := by
    unfold rank4
    simp only
    split
    · split
      · cases l.replies <;> rfl
      · rfl
      · rfl
      · rfl
    · rfl
  unfold choice at h ⊢
  rw [h1, h2, h3, h4, h5]
  cases e1 : rank1 l with
  | some _ => simp [e1] at h
  | none =>
    cases e2 : rank2 l with
    | some _ => simp [e1, e2] at h
    | none =>
      cases e3 : rank3 l with
      | some _ => simp [e1, e2, e3] at h
      | none =>
        cases e4 : rank4 n m l d with
        | some _ => simp [e1, e2, e3, e4] at h
        | none =>
          cases e5 : rank5 l with
          | some _ => simp [e1, e2, e3, e4, e5] at h
          | none => rfl

theorem Settled.setFramer {s : State} (h : Settled s) (p : Port) (fr : Framer) : Settled (setFramer p fr s) := by
  refine h.congr (fun hi => internal_none_congr (s := s) rfl rfl rfl rfl rfl hi) (fun q n m hc => ?_) fun q => ?_
  · by_cases hq : q = p
    · subst hq
      rw [Machine.setFramer, updLink_get_same]
      exact choice_none_framer fr hc
    · rw [Machine.setFramer, updLink_get_ne hq]
      exact hc
  · by_cases hq : q = p
    · subst hq
      rw [lineIdle, Machine.setFramer, updLink_get_same]
      rfl
    · rw [lineIdle, Machine.setFramer, updLink_get_ne hq]
      rfl

/-- A settled part's end of a column slot brings nothing to follow. -/
theorem Settled.endSlot {s : State} (h : Settled s) {c : Column} (hp : s.scan.phase = .slot c) (sense : BitVec 8) : Settled (endSlot sense c s) := by
  have hlink : (Machine.endSlot sense c s).link = s.link := by simp
  have hdel : (Machine.endSlot sense c s).delivery = s.delivery := by simp
  refine h.congr (fun hi => ?_) (fun q n m hc => by rw [hlink, hdel]; exact hc) (fun q => by rw [lineIdle, hlink]; rfl)
  have hph : (Machine.endSlot sense c s).scan.phase = .frameEnd ∨ ∃ c', (Machine.endSlot sense c s).scan.phase = .slot c' := by
    by_cases hc : c.val = 15
    · rw [endSlot_last hc]
      exact Or.inl rfl
    · rw [endSlot_next (n := ⟨c.val + 1, by omega⟩) rfl]
      exact Or.inr ⟨_, rfl⟩
  have hcomp : (Machine.endSlot sense c s).scan.completing = s.scan.completing := by
    have h1 : s.scan.completing = false := completing_eq_false.mpr (Or.inl (by rw [hp]; nofun))
    rw [h1, completing_eq_false]
    rcases hph with e | ⟨_, e⟩ <;> rw [e] <;> exact Or.inl nofun
  rw [internal_eq_none, ownerEvent_eq_none, managerEvent_eq_none] at hi ⊢
  obtain ⟨_, ho, hm⟩ := hi
  refine ⟨scannerEvent_eq_none.mpr (Or.inr ?_), fun q => ?_, fun q => ?_⟩
  · rcases hph with e | ⟨_, e⟩ <;> rw [e] <;> exact ⟨nofun, nofun, nofun⟩
  · rw [readyRequest_congr (s := s) (by simp) hcomp (by simp)]
    exact ho q
  · have := hm q
    simp only [nextRequest, (endSlot_keeps sense c s).2.2.2.2.2.2.1] at this ⊢
    exact this

theorem Settled.takeRequestFrame {s t : State} (h : Settled s) {p : Port} (hs : t.scan = s.scan) (hd : t.disp = s.disp)
    (hh : t.mgr.handed = s.mgr.handed) (hi : t.mgr.inbox = s.mgr.inbox) (hlink : ∀ q, q ≠ p → t.link.get q = s.link.get q)
    (hdel : ∀ q, q ≠ p → t.delivery.get q = s.delivery.get q) (f : RxFrame) : Settled (takeRequestFrame p f t) := by
  have hupd : ∀ g : Link → Link, Settled (Machine.serve p (updLink p g t)) := fun g =>
    h.serve hs hd hh hi (fun q hq => (updLink_get_ne hq g t).trans (hlink q hq)) hdel
  have hsame : Settled (Machine.serve p t) := h.serve hs hd hh hi hlink hdel
  unfold Machine.takeRequestFrame
  split
  · exact hupd _
  · exact hsame
  · cases verdict t p f.seq with
    | accepted => exact settled_finishRequest p _
    | noPlace => exact hsame
    | duplicate => exact hupd _
    | outOfWindow => exact hupd _

theorem takeAckByte_keeps (p : Port) (a : Byte) (s : State) :
    (takeAckByte p a s).scan = s.scan ∧ (takeAckByte p a s).keys = s.keys ∧ (takeAckByte p a s).groups = s.groups ∧
      (takeAckByte p a s).disp = s.disp ∧ (takeAckByte p a s).delivery = s.delivery ∧ (takeAckByte p a s).lamps = s.lamps ∧
      (takeAckByte p a s).link = (updLink p (Link.readAck a) s).link ∧ (takeAckByte p a s).pins = s.pins ∧
      (takeAckByte p a s).pending = s.pending ∧ (takeAckByte p a s).mgr.handed = s.mgr.handed ∧ (takeAckByte p a s).mgr.inbox = s.mgr.inbox := by
  unfold takeAckByte
  simp only
  split <;> exact ⟨rfl, rfl, rfl, rfl, rfl, rfl, rfl, rfl, rfl, rfl, rfl⟩

theorem Settled.takeGoodFrame {s : State} (h : Settled s) (p : Port) (f : RxFrame) : Settled (takeGoodFrame p f s) := by
  obtain ⟨hs, _, _, hd, hdel, _, hlink, _, _, hh, hi⟩ := takeAckByte_keeps p f.ack s
  have hlink' : ∀ q, q ≠ p → (takeAckByte p f.ack s).link.get q = s.link.get q := fun q hq => by
    rw [hlink]
    exact updLink_get_ne hq _ s
  have hdel' : ∀ q, q ≠ p → (takeAckByte p f.ack s).delivery.get q = s.delivery.get q := fun q _ => by rw [hdel]
  unfold Machine.takeGoodFrame
  split
  · exact settled_fullReset s
  · simp only
    split
    · exact h.serve hs hd hh hi hlink' hdel'
    · split
      · exact settled_finish _
      · exact h.takeRequestFrame hs hd hh hi hlink' hdel' f

theorem Settled.feed {s : State} (h : Settled s) (p : Port) (x : RxByte) : Settled (feed p x s) := by
  unfold Machine.feed
  simp only
  split
  · exact (h.setFramer p _).takeGoodFrame p _
  · exact h.setFramer p _

theorem Settled.drain {n : Nat} {s : State} (h : Settled s) (p : Port) : Settled (drain p n s) := by
  induction n generalizing s with
  | zero => exact h
  | succ n ih =>
    unfold Machine.drain
    split
    · exact h
    · split
      · exact h
      · exact ih ((h.setFramer p _).feed p _)

theorem Settled.exec {s t : State} (h : Settled s) {i : Instr} (he : exec i s = .next t) : Settled t := by
  cases i with
  | openSession _ _ _ _ | close _ _ _ _ | grant _ _ _ _ | join _ _ _ _ | leave _ _ _ _ | snapshot _ _ _ _ | lamps _ _ _ _ | status _ _ _ _
  | mapKeys _ _ _ _ | mapLamps _ _ _ _ | groupSetup _ _ _ _ | dissolve _ _ _ _ | scanSetup _ _ _ _ | scanControlStart _ _ _ _
  | scanControlHalt _ _ _ _ | scanControlWatch _ _ _ _ | reset _ _ _ _ | ack _ _ _ _ | unknownTypeRequest _ _ _ _ _ =>
    rw [exec_of_frame rfl] at he
    cases he
    exact h.takeGoodFrame _ _
  | nrst straps | powerUp straps =>
    cases he
    exact settled_fullReset _
  | snapshotRead p | routeTransition =>
    cases he
    exact settled_finish _
  | badCrcFrame p =>
    cases he
    unfold takeBadFrame
    simp only
    split
    · exact (h.setFramer p _).drain p
    · exact h
  | gapTimerExpiry p =>
    cases he
    unfold takeGapExpiry
    split
    · exact h.setFramer p _
    · exact h
  | scanFrameCompletion =>
    simp only [Machine.exec, execScanFrameCompletion] at he
    split at he <;> cases he
    · exact settled_finish _
    all_goals exact h
  | watchSample sense =>
    simp only [Machine.exec, execWatchSample] at he
    split at he <;> cases he
    · exact settled_finish _
    all_goals exact h
  | litDemand =>
    simp only [Machine.exec, execLitDemand] at he
    split at he <;> cases he
    · exact h
    · exact settled_finish _
  | retransmitTimerExpiry p =>
    cases he
    unfold takeRetransmitExpiry
    simp only
    split
    · split
      · exact settled_finish _
      · exact h.serve_updLink p _
    · exact h
  | ackHoldoffExpiry p =>
    cases he
    unfold takeHoldoffExpiry
    split
    · exact h.serve_updLink p _
    · exact h
  | frameTransmitEnd p =>
    cases he
    unfold takeFrameEnd
    split
    · exact h
    · exact h.serve_updLink p _
  | arrivingByte p b fault =>
    cases he
    unfold takeArrivingByte
    split
    · exact h.setFramer p _
    · exact h.feed p _
  | columnSlotEnd sense =>
    simp only [Machine.exec, execColumnSlotEnd] at he
    split at he <;> cases he
    · rename_i hp
      exact h.endSlot hp sense
    all_goals exact h

/-- Settles O60: a step that can bring something to follow ends by going through it to the end, and the bound on that comes down with each event. -/
theorem stepKeepsSettled : Obligations.StepKeepsSettled := by
  intro s t h hs
  unfold step at hs
  split at hs
  · cases hs
    exact h
  · rename_i rest _
    have h' : Settled { s with pending := rest } := ⟨internal_none_congr (s := s) rfl rfl rfl rfl rfl h.1, fun p hp => chooseFrame_none_congr (s := s) rfl rfl (h.2 p hp)⟩
    exact h'.exec hs

/-- Settles O3: the state after reset is one that a full reset leaves, which each condition's own development has. -/
theorem resetMeetsInvariants : Obligations.ResetMeetsInvariants := by
  refine ⟨?_, (panelSound_iff _).mpr ?_, (sessionsSound_iff _).mpr Manager.sound_atReset, (membersSound_iff _).mpr ?_, ?_, ?_⟩
  · refine (ranges_iff _).mpr ⟨(PanelRanges.fullReset State.reset).of_eq rfl rfl rfl rfl rfl, ?_, ?_⟩
    · intro p
      have e : State.reset.delivery.get p = Delivery.empty := PerPort.get_all _ p
      rw [e]
      exact deliveryKept_inRange.empty
    · intro p
      have e : State.reset.link.get p = Link.atReset := PerPort.get_all _ p
      rw [e]
      exact ⟨by decide, by decide, by decide, by decide, by decide, by decide⟩
  · exact (PanelHolds.fullReset State.reset).of_eq rfl rfl rfl
  · exact (MembersHold.fullReset State.reset).of_eq rfl rfl rfl rfl
  · intro p
    have e : State.reset.link.get p = Link.atReset := PerPort.get_all _ p
    rw [e]
    exact (Link.sound_iff _).mpr ⟨Link.soundCore_atReset, Framer.sound_atReset⟩
  · exact (settled_fullReset State.reset).congr (fun hi => internal_none_congr (s := fullReset State.reset) rfl rfl rfl rfl rfl hi) (fun _ _ _ hc => hc) fun _ => rfl

end Sys2Proof.Machine

/-! ## The course of an accepted request -/

namespace Sys2Proof.Machine

/-! ### What serving every port does to one port's units -/

theorem serveAll_spec (p : Port) (s : State) :
    ((serveAll s).link.get p = s.link.get p ∧ (serveAll s).delivery.get p = s.delivery.get p) ∨
      (lineIdle p s = true ∧ Link.Chosen (s.link.get p) ((serveAll s).link.get p) ∧
        Delivery.Chosen s.keys.transition s.scan.frameNumber (s.delivery.get p) ((serveAll s).delivery.get p)) := by
  rw [(serveAll_units p s).1, (serveAll_units p s).2]
  rcases serve_spec p s with e | ⟨l, d, e, hi, hl, hd⟩
  · rw [e]
    exact Or.inl ⟨rfl, rfl⟩
  · rw [e, setPort_link_same, setPort_delivery_same]
    exact Or.inr ⟨hi, hl, hd⟩

theorem servedIn_serveAll (p : Port) (s : State) :
    ServedIn (serveAll s) (s.link.get p) ((serveAll s).link.get p) (s.delivery.get p) ((serveAll s).delivery.get p) := by
  have h := serve_servedIn p s
  unfold ServedIn at h ⊢
  rw [(serveAll_units p s).1, (serveAll_units p s).2]
  simp only [serve_keys, serve_scan] at h
  simp only [serveAll_keys, serveAll_scan]
  exact h

/-- What serves the units of a port that has nothing to choose leaves them. -/
theorem Served.portKept {s t : State} {q : Port} (h : Served s)
    (hs : ServedIn t (s.link.get q) (t.link.get q) (s.delivery.get q) (t.delivery.get q)) : PortKept s t q := by
  unfold ServedIn at hs
  split at hs
  · rename_i hi
    have hc := h q hi
    rw [chooseFrame_eq_none] at hc
    rw [choice_none_congr hc] at hs
    exact ⟨congrArg Prod.fst hs, congrArg Prod.snd hs⟩
  · exact ⟨congrArg Prod.fst hs, congrArg Prod.snd hs⟩

theorem portKept_of_servedIn {s t : State} {q : Port} (h : Settled s)
    (hs : ServedIn t (s.link.get q) (t.link.get q) (s.delivery.get q) (t.delivery.get q)) : PortKept s t q := Served.portKept h.2 hs

theorem Served.portKept_serveAll {s u : State} {q : Port} (h : Served s) (hl : u.link.get q = s.link.get q)
    (hd : u.delivery.get q = s.delivery.get q) : PortKept s (serveAll u) q := by
  refine h.portKept ?_
  have := servedIn_serveAll q u
  rw [hl, hd] at this
  exact this

theorem portKept_of_serveAll {s u : State} {q : Port} (h : Settled s) (hl : u.link.get q = s.link.get q) (hd : u.delivery.get q = s.delivery.get q) :
    PortKept s (serveAll u) q := Served.portKept_serveAll h.2 hl hd

/-! ### The port's own Link Unit -/

/-- The Link Unit of a port that has accepted a request, whatever its transmitter chose meanwhile. -/
structure AcceptedLink (s : State) (p : Port) (seq a : Byte) (l : Link) : Prop where
  lastAccepted : l.lastAccepted = seq
  openMark : l.openMark = false
  framer : l.framer = (s.link.get p).framer
  rto : l.rto = (s.link.get p).rto
  held : l.held = (s.link.get p).held + 1
  busy : lineIdle p s = false → l = ((s.link.get p).readAck a).accept seq

/-- On a line that was SENDING the line is SENDING still. -/
theorem accept_line_busy {s : State} {p : Port} (h : lineIdle p s = false) (seq a : Byte) :
    (((s.link.get p).readAck a).accept seq).line.isIdle = false := by
  rw [(Link.accept_keeps seq _).2.2.2.2.2.2.2.1, (Link.readAck_keeps a _).2.2.2.2.2.2.1]
  exact h

theorem AcceptedLink.not_idle {s : State} {p : Port} {seq a : Byte} {l : Link} (h : AcceptedLink s p seq a l) (hi : lineIdle p s = false) :
    l.line.isIdle = false := by
  rw [h.busy hi]
  exact accept_line_busy hi seq a

theorem AcceptedLink.chosen {s : State} {p : Port} {seq a : Byte} {l l' : Link} (h : AcceptedLink s p seq a l) (hi : l.line.isIdle = true)
    (hc : Link.Chosen l l') : AcceptedLink s p seq a l' where
  lastAccepted := hc.lastAccepted.trans h.lastAccepted
  openMark := hc.openMark.trans h.openMark
  framer := hc.framer.trans h.framer
  rto := hc.rto.trans h.rto
  held := hc.held.trans h.held
  busy e := absurd (hi.symm.trans (h.not_idle e)) (by decide)

theorem acceptedLink_beforeOwner (p : Port) (seq a : Byte) (s : State) : AcceptedLink s p seq a ((beforeOwner p seq a s).link.get p) := by
  obtain ⟨h1, h2, h3, h4, h5, _⟩ := beforeOwner_own p seq a s
  refine ⟨h1, h2, h3, h4, h5, fun e => ?_⟩
  rw [beforeOwner_busy e, updLink_get_same]

/-- The Link Unit of a port that has accepted and answered a request, whatever its transmitter chose meanwhile. -/
structure AnsweredLink (s : State) (p : Port) (seq a : Byte) (r : Reply) (l : Link) : Prop where
  reply : r ∈ l.replies ∨ ∃ f ∈ l.resend, f.body = .reply r
  lastAccepted : l.lastAccepted = seq
  openMark : l.openMark = false
  framer : l.framer = (s.link.get p).framer
  rto : l.rto = (s.link.get p).rto
  held : l.held = (s.link.get p).held
  busy : lineIdle p s = false → l = (s.link.get p).afterAnswer seq a r

/-- A Link Unit once a reply has taken a held place. -/
def Link.withReply (r : Reply) (l : Link) : Link := { l with held := l.held - 1, replies := l.replies ++ [r] }

theorem AcceptedLink.reply {s : State} {p : Port} {seq a : Byte} {l : Link} (h : AcceptedLink s p seq a l) (r : Reply) :
    AnsweredLink s p seq a r (l.withReply r) where
  reply := Or.inl (List.mem_append_right _ (List.mem_singleton.mpr rfl))
  lastAccepted := h.lastAccepted
  openMark := h.openMark
  framer := h.framer
  rto := h.rto
  held := by
    have := h.held
    show l.held - 1 = _
    omega
  busy e := by
    have hr : (((s.link.get p).readAck a).accept seq).replies = (s.link.get p).replies :=
      (Link.accept_keeps seq _).2.2.2.2.2.1.trans (Link.readAck_keeps a _).2.2.2.2.2.1
    have hh : (((s.link.get p).readAck a).accept seq).held - 1 = (s.link.get p).held := by
      rw [(Link.accept_keeps seq _).2.2.2.2.1, (Link.readAck_keeps a _).2.2.2.2.1]
      rfl
    rw [h.busy e, Link.withReply, Link.afterAnswer, hr, hh]

theorem AnsweredLink.chosen {s : State} {p : Port} {seq a : Byte} {r : Reply} {l l' : Link} (h : AnsweredLink s p seq a r l)
    (hi : l.line.isIdle = true) (hc : Link.Chosen l l') : AnsweredLink s p seq a r l' where
  reply := hc.replies r h.reply
  lastAccepted := hc.lastAccepted.trans h.lastAccepted
  openMark := hc.openMark.trans h.openMark
  framer := hc.framer.trans h.framer
  rto := hc.rto.trans h.rto
  held := hc.held.trans h.held
  busy e := by
    have hb := h.busy e
    rw [hb] at hi
    exact absurd (hi.symm.trans (accept_line_busy e seq a)) (by decide)

theorem AnsweredLink.answered {s t : State} {p : Port} {seq a : Byte} {r : Reply} (h : AnsweredLink s p seq a r (t.link.get p)) :
    Answered s t p seq a r := ⟨h.reply, h.lastAccepted, h.openMark, h.framer, h.rto, h.held, h.busy⟩

theorem AcceptedLink.acceptedOn {s t : State} {p : Port} {seq a : Byte} (h : AcceptedLink s p seq a (t.link.get p)) : AcceptedOn s t p seq a :=
  ⟨h.lastAccepted, h.openMark, h.framer, h.rto, h.held, h.busy⟩

/-! ### The owner's part -/

/-- What an owner's part has led to, before the reply: the port's Link Unit as at the acceptance, its Delivery Unit changed in this way, the other Link
Units as they were. -/
structure OwnedUnits (s c : State) (p : Port) (seq a : Byte) (change : Delivery → Delivery) : Prop where
  link : AcceptedLink s p seq a (c.link.get p)
  delivery : ∃ d, ComposedFrom s (s.delivery.get p) d ∧ c.delivery.get p = change d ∧ (lineIdle p s = false → d = s.delivery.get p)
  others : ∀ q, q ≠ p → c.link.get q = s.link.get q

/-- The same, with the session OPEN. -/
structure Owned (s c : State) (p : Port) (seq a : Byte) (change : Delivery → Delivery) : Prop extends OwnedUnits s c p seq a change where
  live : isLive c p ((sessionOf s p).identity.getD 0) = true

theorem Accepting.live {s : State} {p : Port} {seq : Byte} (h : Accepting s p seq) : isLive s p ((sessionOf s p).identity.getD 0) = true := by
  obtain ⟨_, hopen, hid, _⟩ := h
  obtain ⟨n, hn⟩ := Option.isSome_iff_exists.mp hid
  simp only [isLive, hopen, hn, Option.getD_some, beq_self_eq_true, Bool.and_self]

theorem ownedUnits_beforeOwner (p : Port) (seq a : Byte) (s : State) : OwnedUnits s (beforeOwner p seq a s) p seq a id where
  link := acceptedLink_beforeOwner p seq a s
  delivery := ⟨_, (beforeOwner_own p seq a s).2.2.2.2.2, rfl, fun e => by rw [beforeOwner_busy e]; rfl⟩
  others _ hq := beforeOwner_link_ne hq seq a s

theorem owned_beforeOwner {s : State} {p : Port} {seq : Byte} (h : Accepting s p seq) (a : Byte) :
    Owned s (beforeOwner p seq a s) p seq a id where
  toOwnedUnits := ownedUnits_beforeOwner p seq a s
  live := by
    rw [isLive_congr (s := s) (by simp)]
    exact h.live

/-- An owner's part that leaves the Link Units and the sessions. -/
theorem Owned.change {s b c : State} {p : Port} {seq a : Byte} (h : Owned s b p seq a id) {change : Delivery → Delivery} (hl : c.link = b.link)
    (hm : c.mgr.sessions = b.mgr.sessions) (hd : c.delivery.get p = change (b.delivery.get p)) : Owned s c p seq a change where
  link := by
    rw [hl]
    exact h.link
  delivery := by
    obtain ⟨d, h1, h2, h3⟩ := h.delivery
    exact ⟨d, h1, hd.trans (congrArg change h2), h3⟩
  live := by
    rw [isLive_congr hm]
    exact h.live
  others q hq := by
    rw [hl]
    exact h.others q hq

/-- An owner's part that leaves all units and the sessions. -/
theorem Owned.same {s b c : State} {p : Port} {seq a : Byte} (h : Owned s b p seq a id) (hl : c.link = b.link)
    (hm : c.mgr.sessions = b.mgr.sessions) (hd : c.delivery.get p = b.delivery.get p) : Owned s c p seq a id := h.change hl hm hd

section

variable {s c u : State} {p : Port} {seq a : Byte} {change : Delivery → Delivery}

theorem OwnedUnits.lineIdle_false (h : OwnedUnits s c p seq a change) (e : lineIdle p s = false) : lineIdle p c = false := h.link.not_idle e

/-- What at most one composition of the port's transmitter has made of the Delivery Unit that the owner left. -/
def ComposedAfter (s c t : State) (p : Port) : Prop :=
  ComposedFrom t (c.delivery.get p) (t.delivery.get p) ∧ (lineIdle p s = false → t.delivery.get p = c.delivery.get p)

theorem OwnedUnits.delivered (h : OwnedUnits s c p seq a change) {t : State} (ht : ComposedAfter s c t p) : Delivered s t p change := by
  obtain ⟨d, h1, h2, h3⟩ := h.delivery
  obtain ⟨hc, hb⟩ := ht
  rw [h2] at hc hb
  exact ⟨⟨d, h1, hc⟩, fun e => by rw [hb e, h3 e]⟩

/-- After a meeting at most, the port's Link Unit is still one that has accepted, and a composition may have been made. -/
theorem OwnedUnits.raced (h : OwnedUnits s c p seq a change) (hu : u = c ∨ u = raceChoice p c) :
    AcceptedLink s p seq a (u.link.get p) ∧
      ((u.link.get p = c.link.get p ∧ u.delivery.get p = c.delivery.get p) ∨
        (lineIdle p c = true ∧ lineIdle p u = false ∧
          Delivery.Chosen c.keys.transition c.scan.frameNumber (c.delivery.get p) (u.delivery.get p))) := by
  rcases hu with rfl | rfl
  · exact ⟨h.link, Or.inl ⟨rfl, rfl⟩⟩
  · rcases raceChoice_spec p c with e | e | ⟨l, d, e, hi, hl, hd⟩ <;> rw [e]
    · exact ⟨h.link, Or.inl ⟨rfl, rfl⟩⟩
    · exact ⟨h.link, Or.inl ⟨rfl, rfl⟩⟩
    · have hlink : ({ setPort p l d c with races := c.races + 1 } : State).link.get p = l := PerPort.get_set_same _ _ _
      have hdel : ({ setPort p l d c with races := c.races + 1 } : State).delivery.get p = d := PerPort.get_set_same _ _ _
      have hbusy : lineIdle p ({ setPort p l d c with races := c.races + 1 } : State) = false := by
        rw [lineIdle, hlink]
        exact hl.line
      rw [hlink, hdel]
      exact ⟨h.link.chosen hi hl, Or.inr ⟨hi, hbusy, hd⟩⟩

theorem raced_keeps (hu : u = c ∨ u = raceChoice p c) :
    u.scan = c.scan ∧ u.keys = c.keys ∧ u.groups = c.groups ∧ u.disp = c.disp ∧ u.lamps = c.lamps ∧ u.mgr = c.mgr ∧ u.pins = c.pins ∧
      u.pending = c.pending ∧ ∀ q, q ≠ p → u.link.get q = c.link.get q ∧ u.delivery.get q = c.delivery.get q := by
  rcases hu with rfl | rfl
  · exact ⟨rfl, rfl, rfl, rfl, rfl, rfl, rfl, rfl, fun _ _ => ⟨rfl, rfl⟩⟩
  · exact ⟨by simp, by simp, by simp, by simp, by simp, by simp, by simp, by simp,
      fun q hq => ⟨raceChoice_link_ne hq c, raceChoice_delivery_ne hq c⟩⟩

/-- The end of a step in which the port's Link Unit changes once more, outside its line, and every transmitter is served. -/
theorem OwnedUnits.served (h : OwnedUnits s c p seq a change) (hu : u = c ∨ u = raceChoice p c) {v : State} (hvs : v.scan = u.scan) (hvk : v.keys = u.keys)
    (hvd : v.delivery = u.delivery) (hvl : (v.link.get p).line = (u.link.get p).line) (hvo : ∀ q, q ≠ p → v.link.get q = u.link.get q) :
    ComposedAfter s c (serveAll v) p ∧
      ∀ q, q ≠ p → ServedIn (serveAll v) (s.link.get q) ((serveAll v).link.get q) (c.delivery.get q) ((serveAll v).delivery.get q) := by
  obtain ⟨_, hcase⟩ := h.raced hu
  obtain ⟨hs, hk, _, _, _, _, _, _, hother⟩ := raced_keeps hu
  constructor
  · have hnumbers : ∀ {d' : Delivery}, Delivery.Chosen c.keys.transition c.scan.frameNumber (c.delivery.get p) d' →
        ComposedFrom (serveAll v) (c.delivery.get p) d' := by
      intro d' hd
      simpa only [ComposedFrom, Delivery.Chosen, serveAll_keys, serveAll_scan, hvk, hk, hvs, hs] using hd
    refine ⟨hnumbers ?_, fun e => ?_⟩
    · rcases serveAll_spec p v with ⟨_, e⟩ | ⟨hi, _, hd⟩
      · rw [e, hvd]
        rcases hcase with ⟨_, e'⟩ | ⟨_, _, hd'⟩
        · rw [e']
          exact Or.inl rfl
        · exact hd'
      · rcases hcase with ⟨_, e'⟩ | ⟨_, hb, _⟩
        · rw [hvk, hk, hvs, hs, hvd, e'] at hd
          exact hd
        · rw [lineIdle, hvl] at hi
          rw [lineIdle, hi] at hb
          cases hb
    · have hb := h.lineIdle_false e
      rcases hcase with ⟨el, ed⟩ | ⟨hi, _, _⟩
      · rcases serveAll_spec p v with ⟨_, e⟩ | ⟨hi, _, _⟩
        · rw [e, hvd, ed]
        · rw [lineIdle, hvl, el] at hi
          rw [lineIdle, hi] at hb
          cases hb
      · rw [hi] at hb
        cases hb
  · intro q hq
    have := servedIn_serveAll q v
    rw [hvo q hq, hvd, (hother q hq).1, (hother q hq).2, h.others q hq] at this
    exact this

/-- The reply to an accepted request: it stands at the port, the owner's change of the Delivery Unit has been made, and the other ports' transmitters have been
served on their Link Units. -/
theorem Owned.answered {f : RxFrame} (h : Owned s c p f.seq f.ack change) (hu : u = c ∨ u = raceChoice p c) (st : Status) (data : ReplyData) :
    Answered s (serveAll (replyTo (requestOf s p f) st data u)) p f.seq f.ack (replyOn s p f.typ f.seq st data) ∧
      ComposedAfter s c (serveAll (replyTo (requestOf s p f) st data u)) p ∧
      ∀ q, q ≠ p → ServedIn (serveAll (replyTo (requestOf s p f) st data u)) (s.link.get q)
        ((serveAll (replyTo (requestOf s p f) st data u)).link.get q) (c.delivery.get q)
        ((serveAll (replyTo (requestOf s p f) st data u)).delivery.get q) := by
  obtain ⟨hl, _⟩ := h.raced hu
  have hm := (raced_keeps hu).2.2.2.2.2.1
  have hlive : isLive u p ((sessionOf s p).identity.getD 0) = true := by
    rw [isLive_congr (s := c) (by rw [hm])]
    exact h.live
  have hheld : 0 < (u.link.get p).held := by
    rw [hl.held]
    exact Nat.succ_pos _
  have hv : replyTo (requestOf s p f) st data u = updLink p (Link.withReply (replyOn s p f.typ f.seq st data)) u :=
    produce_live hlive hheld
  rw [hv]
  refine ⟨?_, h.served hu rfl rfl rfl (by rw [updLink_get_same]; rfl) fun q hq => updLink_get_ne hq _ u⟩
  have ha := hl.reply (replyOn s p f.typ f.seq st data)
  refine AnsweredLink.answered ?_
  rcases serveAll_spec p (updLink p (Link.withReply (replyOn s p f.typ f.seq st data)) u) with ⟨e, _⟩ | ⟨hi, hc, _⟩
  · rw [e, updLink_get_same]
    exact ha
  · rw [lineIdle, updLink_get_same] at hi
    rw [updLink_get_same] at hc
    exact ha.chosen hi hc

/-- An accepted request whose reply is not produced yet. -/
theorem OwnedUnits.waits (h : OwnedUnits s c p seq a change) :
    AcceptedOn s (serveAll c) p seq a ∧ ComposedAfter s c (serveAll c) p ∧
      ∀ q, q ≠ p → ServedIn (serveAll c) (s.link.get q) ((serveAll c).link.get q) (c.delivery.get q) ((serveAll c).delivery.get q) := by
  refine ⟨AcceptedLink.acceptedOn ?_, h.served (Or.inl rfl) rfl rfl rfl rfl fun _ _ => rfl⟩
  rcases serveAll_spec p c with ⟨e, _⟩ | ⟨hi, hc, _⟩
  · rw [e]
    exact h.link
  · exact h.link.chosen hi hc

/-- The other ports' units stand when the owner's part has not touched their Delivery Units. -/
theorem otherPortsKept_of_servedIn {t : State} (h : Settled s) (hd : ∀ q, q ≠ p → c.delivery.get q = s.delivery.get q)
    (hserved : ∀ q, q ≠ p → ServedIn t (s.link.get q) (t.link.get q) (c.delivery.get q) (t.delivery.get q)) : OtherPortsKept s t p :=
  fun q hq => portKept_of_servedIn h (by rw [← hd q hq]; exact hserved q hq)

end

/-! ### From the frame to the owner -/

/-- No request that decodes is an ACK frame or an OPEN. -/
theorem Ask.typ_ne (ask : Ask) : ask.typ ≠ typeAck ∧ ask.typ ≠ typeOpen := by
  cases ask <;> simp only [Ask.typ] <;> decide

theorem decodeRequest_ok_frame {typ : Byte} {payload : List Byte} {ask : Ask} (h : decodeRequest typ payload = .ok ask) :
    typ ≠ typeAck ∧ typ ≠ typeOpen := by
  rw [← (decodeRequest_ok h).1]
  exact ask.typ_ne

theorem requestLive_beforeOwner {s : State} {p : Port} {f : RxFrame} (h : Accepting s p f.seq) :
    requestLive (beforeOwner p f.seq f.ack s) (requestOf s p f) = true := (owned_beforeOwner h f.ack).live

/-- An accepted request that the Session Manager does not hand on. -/
theorem refused_request {s : State} {p : Port} {i : Instr} {f : RxFrame} (hr : Accepting s p f.seq) (hi : i.frame? = some (p, f))
    (hack : ackEndsReset p f.ack s = false) (hta : f.typ ≠ typeAck) (hto : f.typ ≠ typeOpen) {st : Status}
    (hst : takeRequest (arrived s p f) (beforeOwner p f.seq f.ack s) = replyTo (requestOf s p f) st .none (beforeOwner p f.seq f.ack s)) :
    exec i s = .next (serveAll (replyTo (requestOf s p f) st .none (beforeOwner p f.seq f.ack s))) := by
  rw [exec_of_frame hi, accepted_request hr hack hta hto, hst]
  rw [hst]
  exact internal_none_congr (s := s) (by simp) (by simp) (by simp) (by simp) (by simp) hr.1.1

/-- An accepted request that passes the checks of R150. -/
theorem checked_request {s : State} {p : Port} {i : Instr} {f : RxFrame} {ask : Ask} (hr : Ready s p f.seq) (hi : i.frame? = some (p, f))
    (hd : decodeRequest f.typ f.payload = .ok ask) (hrole : ask.adminOnly = true → isAdmin s p) {c : State}
    (hc : handOn { req := requestOf s p f, ask := ask } (beforeOwner p f.seq f.ack s) = c) (hq : internal c = none) :
    exec i s = .next (serveAll c) := by
  obtain ⟨hta, hto⟩ := decodeRequest_ok_frame hd
  have hlive := requestLive_beforeOwner hr.1
  have hcheck1 : resetRefused (arrived s p f) (beforeOwner p f.seq f.ack s) = false := resetRefused_of_none (by simp [hr.2]) _
  have hcheck3 : roleRefused (beforeOwner p f.seq f.ack s) p ask = false := by
    unfold roleRefused
    cases ha : ask.adminOnly with
    | false => rfl
    | true =>
      rw [sessionOf_congr (s := s) (by simp), hrole ha]
      rfl
  have htake : takeRequest (arrived s p f) (beforeOwner p f.seq f.ack s) = c := (takeRequest_checked hlive hcheck1 hd hcheck3).trans hc
  rw [exec_of_frame hi, accepted_request hr.1 (ackEndsReset_false hr.2 p f.ack) hta hto, htake]
  rw [htake]
  exact hq

/-- Nothing follows in a state whose owners are no readier than in one where nothing follows, with no stage of the scanner due and no request queued anew. -/
theorem internal_none_of {s t : State} (h : internal s = none) (hsc : scannerEvent t = none)
    (hready : ∀ q a, ownerReady t q a = true → ownerReady s q a = true) (hh : t.mgr.handed = s.mgr.handed)
    (hi : ∀ q, s.mgr.inbox.get q = [] → t.mgr.inbox.get q = []) : internal t = none := by
  rw [internal_eq_none, ownerEvent_eq_none, managerEvent_eq_none] at h ⊢
  obtain ⟨_, ho, hm⟩ := h
  refine ⟨hsc, fun q => ?_, fun q => ?_⟩
  · have hq := ho q
    rw [readyRequest, Option.filter_eq_none_iff] at hq ⊢
    rw [hh]
    exact fun x hx e => hq x hx (hready q x.ask e)
  · have hq := hm q
    unfold nextRequest at hq ⊢
    rw [hh]
    cases hhand : s.mgr.handed.get q with
    | some x => rfl
    | none =>
      rw [hhand] at hq
      have hnil : s.mgr.inbox.get q = [] := by
        cases hin : s.mgr.inbox.get q with
        | nil => rfl
        | cons w rest =>
          rw [hin] at hq
          cases hq
      rw [hi q hnil]

theorem dark_of_stagesLeft {ph : Phase} (h : ph.stagesLeft = 0) : ph ≠ .imageWaiting ∧ ph ≠ .haltWaiting ∧ ph ≠ .haltRouting := by
  cases ph with
  | idle | slot _ | frameEnd => exact ⟨nofun, nofun, nofun⟩
  | imageWaiting | haltWaiting | haltRouting => cases h

/-- Nothing follows an owner's part in a part where nothing followed. -/
theorem internal_carryOut {s : State} {r : Request} {a : Ask} (h : internal s = none) (hready : ownerReady s r.port a = true) :
    internal (carryOut r a s) = none := by
  obtain ⟨hw, hsnap⟩ := carryOut_disp r a s
  obtain ⟨hh, hi⟩ := carryOut_waiting r a s
  have hdark := (internal_eq_none.mp h).1
  rw [scannerEvent_eq_none] at hdark
  have hcompleting : (carryOut r a s).scan.completing = false → s.scan.completing = false := by
    intro e
    by_cases ha : ∀ op, a ≠ .scanControl op
    · obtain ⟨h1, h2⟩ := carryOut_place ha r s
      unfold Scanner.completing at e ⊢
      rwa [h1, h2] at e
    · obtain ⟨op, rfl⟩ : ∃ op, a = .scanControl op := by simpa using ha
      simpa [ownerReady] using hready
  refine internal_none_of h (scannerEvent_eq_none.mpr ?_) (fun q x hx => ?_) hh fun q hq => ?_
  · rcases hdark with e | e
    · exact Or.inl (hw e)
    · have := carryOut_stages r a s
      rw [stagesLeft_of_dark e] at this
      exact Or.inr (dark_of_stagesLeft (Nat.le_zero.mp this))
  · cases x with
    | close | grant _ | join _ _ | leave _ | lamps _ | status | mapLamps _ | groupSetup _ _ _ | dissolve _ | reset => rfl
    | snapshot g =>
      simp only [ownerReady, Option.isNone_iff_eq_none] at hx ⊢
      exact hsnap q hx
    | mapKeys es =>
      simp only [ownerReady, List.isEmpty_iff] at hx ⊢
      by_contra hne
      exact hw hne hx
    | scanSetup su =>
      simp only [ownerReady, Bool.not_eq_true'] at hx ⊢
      exact hcompleting hx
    | scanControl op =>
      simp only [ownerReady, Bool.not_eq_true'] at hx ⊢
      exact hcompleting hx
  · have := hi q
    rw [hq] at this
    exact List.eq_nil_of_length_eq_zero (Nat.le_zero.mp this)

theorem internal_beforeOwner {s : State} (h : internal s = none) (p : Port) (seq a : Byte) : internal (beforeOwner p seq a s) = none :=
  internal_none_congr (s := s) (by simp) (by simp) (by simp) (by simp) (by simp) h

/-- An accepted request whose owner takes it at once: the owner's part, and every transmitter served. -/
theorem owner_request {s : State} {p : Port} {i : Instr} {f : RxFrame} {ask : Ask} (hr : Ready s p f.seq) (hi : i.frame? = some (p, f))
    (hd : decodeRequest f.typ f.payload = .ok ask) (hrole : ask.adminOnly = true → isAdmin s p) (hready : ownerReady s p ask = true) :
    exec i s = .next (serveAll (carryOut (requestOf s p f) ask (beforeOwner p f.seq f.ack s))) := by
  have hready' : ownerReady (beforeOwner p f.seq f.ack s) p ask = true := by
    rw [ownerReady_congr (s := s) (by simp) (by simp)]
    exact hready
  exact checked_request hr hi hd hrole (handOn_ready (requestLive_beforeOwner hr.1) hready')
    (internal_carryOut (internal_beforeOwner hr.1.1.1 p f.seq f.ack) hready')

/-- A request that changes nothing but what its acceptance and its answer change. -/
theorem nothingElse_of {s s' t c : State} {p : Port} (h : Settled s) (hlink : s'.link = s.link) (hdel : s'.delivery = s.delivery)
    (hn : s'.keys.transition = s.keys.transition) (hf : s'.scan.frameNumber = s.scan.frameNumber) (hp : SamePanel s' t) (hm : t.mgr = s'.mgr)
    (hd : ∀ q, q ≠ p → c.delivery.get q = s.delivery.get q) (hdel' : Delivered s t p id)
    (hserved : ∀ q, q ≠ p → ServedIn t (s.link.get q) (t.link.get q) (c.delivery.get q) (t.delivery.get q)) : NothingElse s' t p := by
  refine ⟨hp, fun q hq => ?_, hm, ?_⟩
  · have hk := otherPortsKept_of_servedIn h hd hserved q hq
    exact ⟨by rw [hlink]; exact hk.1, by rw [hdel]; exact hk.2⟩
  · unfold Delivered ComposedFrom lineIdle at hdel' ⊢
    rw [hlink, hdel, hn, hf]
    exact hdel'

/-- A request that changes the panel at most, and is answered. -/
theorem panel_reply {s s' c : State} {p : Port} {f : RxFrame} (hr : Accepting s p f.seq) (hl : c.link = (beforeOwner p f.seq f.ack s).link)
    (hd : c.delivery = (beforeOwner p f.seq f.ack s).delivery) (hm : c.mgr = s.mgr) (hp : SamePanel s' c)
    (hs' : s'.link = s.link ∧ s'.delivery = s.delivery ∧ s'.mgr = s.mgr)
    (hn : s'.keys.transition = s.keys.transition ∧ s'.scan.frameNumber = s.scan.frameNumber) (st : Status) (data : ReplyData) :
    Answered s (serveAll (replyTo (requestOf s p f) st data c)) p f.seq f.ack (replyOn s p f.typ f.seq st data) ∧
      NothingElse s' (serveAll (replyTo (requestOf s p f) st data c)) p := by
  have ho : Owned s c p f.seq f.ack id := (owned_beforeOwner hr f.ack).same hl (by rw [hm, beforeOwner_mgr]) (by rw [hd])
  obtain ⟨hans, hcomp, hserved⟩ := ho.answered (Or.inl rfl) st data
  obtain ⟨h1, h2, h3⟩ := hs'
  obtain ⟨p1, p2, p3, p4, p5, p6, p7⟩ := hp
  refine ⟨hans, nothingElse_of hr.1 h1 h2 hn.1 hn.2 ⟨?_, ?_, ?_, ?_, ?_, ?_, ?_⟩ ?_ (fun q hq => ?_) (ho.delivered hcomp) hserved⟩
  · simp [p1]
  · simp [p2]
  · simp [p3]
  · simp [p4]
  · simp [p5]
  · simp [p6]
  · simp [p7]
  · simp [hm, h3]
  · rw [hd, beforeOwner_delivery_ne hq]

theorem samePanel_beforeOwner (p : Port) (seq a : Byte) (s : State) : SamePanel s (beforeOwner p seq a s) := by
  simp [SamePanel]

/-- A request that changes nothing, and is answered. -/
theorem plain_reply {s : State} {p : Port} {f : RxFrame} (hr : Accepting s p f.seq) (st : Status) (data : ReplyData) :
    Answered s (serveAll (replyTo (requestOf s p f) st data (beforeOwner p f.seq f.ack s))) p f.seq f.ack (replyOn s p f.typ f.seq st data) ∧
      NothingElse s (serveAll (replyTo (requestOf s p f) st data (beforeOwner p f.seq f.ack s))) p :=
  panel_reply hr rfl rfl (by simp) (samePanel_beforeOwner p f.seq f.ack s) ⟨rfl, rfl, rfl⟩ ⟨rfl, rfl⟩ st data

end Sys2Proof.Machine

/-! ### The requests refused at the checks, and those to the scanner (R150, R11 to R17) -/

namespace Sys2Proof.Machine

/-- Settles O40: an unknown TYPE, a payload that does not decode, a session without the role, a reset in flight; each is answered and nothing more. -/
theorem refusedAtChecks : Obligations.RefusedAtChecks := by
  have hrefused : ∀ (s : State) (p : Port) (i : Instr) (f : RxFrame) (st : Status), Ready s p f.seq → i.frame? = some (p, f) →
      f.typ ≠ typeAck → f.typ ≠ typeOpen → decodeRequest f.typ f.payload = .refused st →
      exec i s = .next (serveAll (replyTo (requestOf s p f) st .none (beforeOwner p f.seq f.ack s))) := by
    intro s p i f st hr hi hta hto hd
    exact refused_request hr.1 hi (ackEndsReset_false hr.2 p f.ack) hta hto
      (takeRequest_undecoded (requestLive_beforeOwner hr.1) (resetRefused_of_none (by simp [hr.2]) _) hd)
  refine ⟨fun s p typ seq a payload hr htyp => ?_, fun s p i f hr hi hta hto => ?_, fun s p i f hr hreset hack hi hta hto => ?_⟩
  · have hunknown : knownRequestType typ = false := by
      rw [← Bool.not_eq_true, knownRequestType_iff]
      omega
    have hta : typ ≠ typeAck := by
      rintro rfl
      revert htyp
      decide
    have hto : typ ≠ typeOpen := by
      rintro rfl
      cases hunknown
    exact ⟨_, hrefused s p _ ⟨typ, seq, a, payload⟩ .unknownType hr rfl hta hto (decodeRequest_unknownType hunknown), plain_reply hr.1 _ _⟩
  · cases hd : decodeRequest f.typ f.payload with
    | refused st =>
      refine ⟨_, hrefused s p i f st hr hi hta hto hd, fun st' e => ?_, nofun⟩
      cases e
      exact plain_reply hr.1 _ _
    | ok ask =>
      by_cases hrole : ask.adminOnly = true ∧ ¬isAdmin s p
      · have hno : roleRefused (beforeOwner p f.seq f.ack s) p ask = true := by
          rw [roleRefused, hrole.1, sessionOf_congr (s := s) (by simp), Bool.true_and, bne_iff_ne]
          exact hrole.2
        refine ⟨_, refused_request hr.1 hi (ackEndsReset_false hr.2 p f.ack) hta hto
          (takeRequest_notAdmin (requestLive_beforeOwner hr.1) (resetRefused_of_none (by simp [hr.2]) _) hd hno), nofun, fun _ _ _ _ => ?_⟩
        exact plain_reply hr.1 _ _
      · refine ⟨_, exec_of_frame hi s, nofun, fun ask' e h1 h2 => ?_⟩
        cases e
        exact absurd ⟨h1, h2⟩ hrole
  · have hres : resetRefused (arrived s p f) (beforeOwner p f.seq f.ack s) = true := by
      simp [resetRefused, arrived, hreset]
    exact ⟨_, refused_request hr hi hack hta hto (takeRequest_resetting (requestLive_beforeOwner hr) hres), plain_reply hr _ _⟩

/-- The scanner takes a request at once unless an image waits with no HALT in flight. -/
theorem not_completing {s : State} (h : s.scan.phase ≠ .imageWaiting ∨ s.scan.halt.isSome = true) : (!s.scan.completing) = true := by
  rw [completing_eq_false.mpr h]
  rfl

/-- Settles O18. -/
theorem scanSetupRequest : Obligations.ScanSetupRequest := by
  intro s p seq a payload su hr hadmin hplace hd
  refine ⟨_, owner_request hr rfl hd (fun _ => hadmin) (not_completing hplace), fun hst => ?_, fun hst => ?_⟩
  · have hc : carryOut (requestOf s p ⟨typeScanSetup, seq, a, payload⟩) (.scanSetup su) (beforeOwner p seq a s) =
        replyTo (requestOf s p ⟨typeScanSetup, seq, a, payload⟩) .ok .none
          { beforeOwner p seq a s with scan := { (beforeOwner p seq a s).scan with setup := su } } := by
      simp only [carryOut, takeScanSetup, beforeOwner_scan, hst, if_true]
    rw [hc]
    refine panel_reply (f := ⟨typeScanSetup, seq, a, payload⟩) hr.1 ?_ ?_ ?_ ?_ ?_ ?_ .ok .none <;> simp [SamePanel]
  · have hc : carryOut (requestOf s p ⟨typeScanSetup, seq, a, payload⟩) (.scanSetup su) (beforeOwner p seq a s) =
        replyTo (requestOf s p ⟨typeScanSetup, seq, a, payload⟩) .scanRunning .none (beforeOwner p seq a s) := by
      simp only [carryOut, takeScanSetup, beforeOwner_scan, hst, if_false]
    rw [hc]
    exact plain_reply hr.1 _ _

/-- With one ADMIN session at most, the ADMIN port is that session's. -/
theorem adminPort_eq {s : State} {p : Port} (h : SessionsSound s) (ho : isOpen s p = true) (ha : isAdmin s p) : adminPort s = some p := by
  have hclaim : s.mgr.adminClaim = some p := ((h.1 p).2.2.2.1).mpr ⟨ho, ha⟩
  cases hf : adminPort s with
  | none =>
    have := List.find?_eq_none.mp hf p (by cases p <;> decide)
    rw [ho, show (sessionOf s p).role = some .admin from ha] at this
    exact absurd rfl this
  | some q =>
    obtain ⟨hoq, haq⟩ := adminPort_eq_some hf
    have hq : s.mgr.adminClaim = some q := ((h.1 q).2.2.2.1).mpr ⟨hoq, haq⟩
    rw [hclaim] at hq
    rw [Option.some.inj hq]

theorem postScanState_delivery {s : State} {p : Port} (ho : isOpen s p = true) (ha : adminPort s = some p) (q : Port) :
    (postScanState s).delivery.get q = if q = p then (s.delivery.get q).takeScanState s.scan.state else s.delivery.get q := by
  unfold postScanState
  simp only [ha]
  rw [post_open ho]
  by_cases hq : q = p
  · subst hq
    rw [updDelivery_get_same, if_pos rfl]
  · rw [updDelivery_get_ne hq, if_neg hq]

/-- A scan state is entered on a request of the ADMIN port: it is posted to that port and the reply carries it. -/
theorem scanState_reply {s s' e : State} {p : Port} {f : RxFrame} (hr : Accepting s p f.seq) (hadmin : isAdmin s p) (hsess : SessionsSound s)
    (he : ∃ sc : Scanner, e = postScanState { beforeOwner p f.seq f.ack s with scan := sc } ∧ s' = { s with scan := sc }) {st : ScanState}
    (hst : s'.scan.state = st) :
    Answered s (serveAll (scanReply (requestOf s p f) .ok (raceChoice p e))) p f.seq f.ack (replyOn s p f.typ f.seq .ok (.scan st)) ∧
      Delivered s (serveAll (scanReply (requestOf s p f) .ok (raceChoice p e))) p (Delivery.takeScanState st) ∧
      OtherPortsKept s (serveAll (scanReply (requestOf s p f) .ok (raceChoice p e))) p ∧
      (serveAll (scanReply (requestOf s p f) .ok (raceChoice p e))).mgr = s.mgr ∧
      SamePanel s' (serveAll (scanReply (requestOf s p f) .ok (raceChoice p e))) := by
  obtain ⟨sc, rfl, rfl⟩ := he
  have hscan : sc.state = st := hst
  have hses : (beforeOwner p f.seq f.ack s).mgr.sessions = s.mgr.sessions := by simp
  have ho : isOpen { beforeOwner p f.seq f.ack s with scan := sc } p = true := by
    rw [isOpen_congr (t := { beforeOwner p f.seq f.ack s with scan := sc }) (s := s) hses]
    exact hr.2.1
  have ha : adminPort { beforeOwner p f.seq f.ack s with scan := sc } = some p := by
    rw [adminPort_congr (t := { beforeOwner p f.seq f.ack s with scan := sc }) (s := s) hses]
    exact adminPort_eq hsess hr.2.1 hadmin
  have hdel := postScanState_delivery ho ha
  have howned : Owned s (postScanState { beforeOwner p f.seq f.ack s with scan := sc }) p f.seq f.ack (Delivery.takeScanState st) :=
    (owned_beforeOwner hr f.ack).change (by simp) (by simp) (by rw [hdel, if_pos rfl, ← hscan])
  have hdata : scanReply (requestOf s p f) .ok (raceChoice p (postScanState { beforeOwner p f.seq f.ack s with scan := sc })) =
      replyTo (requestOf s p f) .ok (.scan st) (raceChoice p (postScanState { beforeOwner p f.seq f.ack s with scan := sc })) := by
    simp only [scanReply, raceChoice_scan, postScanState_scan, hscan]
  rw [hdata]
  obtain ⟨hans, hcomp, hserved⟩ := howned.answered (Or.inr rfl) .ok (.scan st)
  refine ⟨hans, howned.delivered hcomp, otherPortsKept_of_servedIn hr.1 (fun q hq => ?_) hserved, by simp, by simp [SamePanel]⟩
  rw [hdel, if_neg hq]
  exact beforeOwner_delivery_ne hq f.seq f.ack s

theorem decodeRequest_scanControl (op : ScanOp) : decodeRequest typeScanControl [op.code] = .ok (.scanControl op) :=
  decodeRequest_payload (ask := .scanControl op) rfl

theorem columnLamps_congr {s t : State} (hl : t.lamps = s.lamps) (hk : t.keys = s.keys) (frame : Word16) (c : Column) :
    columnLamps t frame c = columnLamps s frame c := by
  simp only [columnLamps, lampLit, hl, hk]

/-- Settles O19. -/
theorem scanStartRequest : Obligations.ScanStartRequest := by
  intro s p seq a hr hadmin hsess hplace
  refine ⟨_, owner_request (f := ⟨typeScanControl, seq, a, [0]⟩) hr rfl (decodeRequest_scanControl .start) (fun _ => hadmin) (not_completing hplace),
    fun hh => ?_, fun hh hst => ?_, fun hh hst => ?_⟩
  · have hc : carryOut (requestOf s p ⟨typeScanControl, seq, a, [0]⟩) (.scanControl .start) (beforeOwner p seq a s) =
        replyTo (requestOf s p ⟨typeScanControl, seq, a, [0]⟩) .busy (.scan s.scan.state) (beforeOwner p seq a s) := by
      simp only [carryOut, takeScanControl, takeScanStart, scanReply, beforeOwner_scan, hh, if_true]
    rw [hc]
    exact plain_reply hr.1 _ _
  · have hc : carryOut (requestOf s p ⟨typeScanControl, seq, a, [0]⟩) (.scanControl .start) (beforeOwner p seq a s) =
        replyTo (requestOf s p ⟨typeScanControl, seq, a, [0]⟩) .ok (.scan .active) (beforeOwner p seq a s) := by
      simp only [carryOut, takeScanControl, takeScanStart, scanReply, beforeOwner_scan, hh, hst, Option.isSome_none, Bool.false_eq_true, if_false]
    rw [hc]
    exact plain_reply hr.1 _ _
  · have hc : carryOut (requestOf s p ⟨typeScanControl, seq, a, [0]⟩) (.scanControl .start) (beforeOwner p seq a s) =
        scanReply (requestOf s p ⟨typeScanControl, seq, a, [0]⟩) .ok (raceChoice p (enterActive (beforeOwner p seq a s))) := by
      simp only [carryOut, takeScanControl, takeScanStart, beforeOwner_scan, hh, Option.isSome_none, Bool.false_eq_true, if_false]
      cases h : s.scan.state with
      | active => exact absurd h hst
      | halted | watch => rfl
    have hlamps : columnLamps (beforeOwner p seq a s) (s.scan.frameNumber + 1) 0 = columnLamps s (s.scan.frameNumber + 1) 0 :=
      columnLamps_congr (by simp) (by simp) _ _
    rw [hc]
    refine scanState_reply (f := ⟨typeScanControl, seq, a, [0]⟩) hr.1 hadmin hsess ⟨_, ?_, rfl⟩ rfl
    rw [enterActive, beginFrame, beginSlot]
    simp only [beforeOwner_scan]
    rw [← hlamps]
    rfl

/-- Settles O20. -/
theorem scanHaltRequest : Obligations.ScanHaltRequest := by
  intro s p seq a hr hadmin hsess hplace
  refine ⟨_, owner_request (f := ⟨typeScanControl, seq, a, [1]⟩) hr rfl (decodeRequest_scanControl .halt) (fun _ => hadmin) (not_completing hplace),
    fun hh => ?_, fun hh hst => ?_, fun hh hst => ?_, fun hh hst => ?_⟩
  · have hc : carryOut (requestOf s p ⟨typeScanControl, seq, a, [1]⟩) (.scanControl .halt) (beforeOwner p seq a s) =
        replyTo (requestOf s p ⟨typeScanControl, seq, a, [1]⟩) .busy (.scan s.scan.state) (beforeOwner p seq a s) := by
      simp only [carryOut, takeScanControl, takeScanHalt, scanReply, beforeOwner_scan, hh, if_true]
    rw [hc]
    exact plain_reply hr.1 _ _
  · have hc : carryOut (requestOf s p ⟨typeScanControl, seq, a, [1]⟩) (.scanControl .halt) (beforeOwner p seq a s) =
        replyTo (requestOf s p ⟨typeScanControl, seq, a, [1]⟩) .ok (.scan .halted) (beforeOwner p seq a s) := by
      simp only [carryOut, takeScanControl, takeScanHalt, scanReply, beforeOwner_scan, hh, hst, Option.isSome_none, Bool.false_eq_true, if_false]
    rw [hc]
    exact plain_reply hr.1 _ _
  · have hc : carryOut (requestOf s p ⟨typeScanControl, seq, a, [1]⟩) (.scanControl .halt) (beforeOwner p seq a s) =
        scanReply (requestOf s p ⟨typeScanControl, seq, a, [1]⟩) .ok (raceChoice p (enterHalted (beforeOwner p seq a s))) := by
      simp only [carryOut, takeScanControl, takeScanHalt, beforeOwner_scan, hh, hst, Option.isSome_none, Bool.false_eq_true, if_false]
      rfl
    rw [hc]
    refine scanState_reply (f := ⟨typeScanControl, seq, a, [1]⟩) hr.1 hadmin hsess ⟨_, ?_, rfl⟩ rfl
    rw [enterHalted]
    simp only [beforeOwner_scan]
  · have hc : carryOut (requestOf s p ⟨typeScanControl, seq, a, [1]⟩) (.scanControl .halt) (beforeOwner p seq a s) =
        { beforeOwner p seq a s with
          scan := { s.scan with halt := some { port := p, session := (sessionOf s p).identity.getD 0, seq := seq } } } := by
      simp only [carryOut, takeScanControl, takeScanHalt, beforeOwner_scan, hh, hst, Option.isSome_none, Bool.false_eq_true, if_false]
      rfl
    rw [hc]
    have ho : Owned s { beforeOwner p seq a s with
        scan := { s.scan with halt := some { port := p, session := (sessionOf s p).identity.getD 0, seq := seq } } } p seq a id :=
      (owned_beforeOwner hr.1 a).same rfl rfl rfl
    obtain ⟨hacc, hcomp, hserved⟩ := ho.waits
    exact ⟨hacc, nothingElse_of hr.1.1 rfl rfl rfl rfl (by simp [SamePanel]) (by simp) (fun q hq => beforeOwner_delivery_ne hq seq a s)
      (ho.delivered hcomp) hserved⟩

/-- Settles O21. -/
theorem scanWatchRequest : Obligations.ScanWatchRequest := by
  intro s p seq a hr hadmin hsess hplace
  have hup : allUp (beforeOwner p seq a s) = allUp s := allUp_congr (by simp)
  have hlamp : anyLamp (beforeOwner p seq a s) = anyLamp s := anyLamp_congr (by simp)
  refine ⟨_, owner_request (f := ⟨typeScanControl, seq, a, [2]⟩) hr rfl (decodeRequest_scanControl .watch) (fun _ => hadmin) (not_completing hplace),
    fun hh => ?_, fun hh hst => ?_, fun hh hst => ?_, fun hh hst hbusy => ?_, fun hh hst hu hl => ?_⟩
  · have hc : carryOut (requestOf s p ⟨typeScanControl, seq, a, [2]⟩) (.scanControl .watch) (beforeOwner p seq a s) =
        replyTo (requestOf s p ⟨typeScanControl, seq, a, [2]⟩) .busy (.scan s.scan.state) (beforeOwner p seq a s) := by
      simp only [carryOut, takeScanControl, takeScanWatch, scanReply, beforeOwner_scan, hh, if_true]
    rw [hc]
    exact plain_reply hr.1 _ _
  · have hc : carryOut (requestOf s p ⟨typeScanControl, seq, a, [2]⟩) (.scanControl .watch) (beforeOwner p seq a s) =
        replyTo (requestOf s p ⟨typeScanControl, seq, a, [2]⟩) .notScanning (.scan .halted) (beforeOwner p seq a s) := by
      simp only [carryOut, takeScanControl, takeScanWatch, scanReply, beforeOwner_scan, hh, hst, Option.isSome_none, Bool.false_eq_true, if_false]
    rw [hc]
    exact plain_reply hr.1 _ _
  · have hc : carryOut (requestOf s p ⟨typeScanControl, seq, a, [2]⟩) (.scanControl .watch) (beforeOwner p seq a s) =
        replyTo (requestOf s p ⟨typeScanControl, seq, a, [2]⟩) .ok (.scan .watch) (beforeOwner p seq a s) := by
      simp only [carryOut, takeScanControl, takeScanWatch, scanReply, beforeOwner_scan, hh, hst, Option.isSome_none, Bool.false_eq_true, if_false]
    rw [hc]
    exact plain_reply hr.1 _ _
  · have hno : (allUp s && !anyLamp s) = false := by
      rcases hbusy with e | e <;> simp [e]
    have hc : carryOut (requestOf s p ⟨typeScanControl, seq, a, [2]⟩) (.scanControl .watch) (beforeOwner p seq a s) =
        replyTo (requestOf s p ⟨typeScanControl, seq, a, [2]⟩) .notIdle (.scan .active) (beforeOwner p seq a s) := by
      simp only [carryOut, takeScanControl, takeScanWatch, scanReply, beforeOwner_scan, hh, hst, hup, hlamp, hno, Option.isSome_none,
        Bool.false_eq_true, if_false]
    rw [hc]
    exact plain_reply hr.1 _ _
  · have hc : carryOut (requestOf s p ⟨typeScanControl, seq, a, [2]⟩) (.scanControl .watch) (beforeOwner p seq a s) =
        scanReply (requestOf s p ⟨typeScanControl, seq, a, [2]⟩) .ok (raceChoice p (enterWatch (beforeOwner p seq a s))) := by
      simp only [carryOut, takeScanControl, takeScanWatch, beforeOwner_scan, hh, hst, hup, hlamp, hu, hl, Option.isSome_none,
        Bool.false_eq_true, if_false, Bool.not_false, Bool.and_self, if_true]
      rfl
    rw [hc]
    refine scanState_reply (f := ⟨typeScanControl, seq, a, [2]⟩) hr.1 hadmin hsess ⟨_, ?_, rfl⟩ rfl
    rw [enterWatch]
    simp only [beforeOwner_scan]

end Sys2Proof.Machine

/-! ### The requests to the groups and to a Delivery Unit (R48 to R56, R91) -/

namespace Sys2Proof.Machine

theorem memberMode_beforeOwner (p : Port) (seq a : Byte) (s : State) (g : Group) (q : Port) :
    memberMode (beforeOwner p seq a s) g q = memberMode s g q := by
  simp only [memberMode, beforeOwner_groups]

/-- Settles O22. -/
theorem groupSetupRequest : Obligations.GroupSetupRequest := by
  intro s p seq a payload g delay interval hr hadmin hd
  refine ⟨_, owner_request hr rfl hd (fun _ => hadmin) rfl, ?_⟩
  refine panel_reply (f := ⟨typeGroupSetup, seq, a, payload⟩) hr.1 ?_ ?_ ?_ ?_ ?_ ?_ .ok .none <;> simp [SamePanel, setGroup]

/-- A group left by the port: the lamps of the group, if it is then without members, are blanked (R56). -/
theorem removeMember_noMembers {p : Port} {s : State} {g : Group} (h : (memberMode s g p).isSome = true) :
    leavesEmpty p s g = true ↔ NoMembers (removeMember p s g) g := by
  rw [← memberless_iff, removeMember_groups, if_pos rfl, leavesEmpty, h, Bool.true_and]

theorem removeMember_groups_eq {p : Port} {s : State} {g : Group} (h : (memberMode s g p).isSome = true) :
    (removeMember p s g).groups = s.groups.set g.val { s.groups[g] with members := s.groups[g].members.set p none } := by
  simp only [removeMember, h, if_true]
  split <;> rfl

/-- Settles O23. -/
theorem joinAndLeaveRequests : Obligations.JoinAndLeaveRequests := by
  refine ⟨fun s p seq a payload g m hr hd => ?_, fun s p seq a payload g hr hd => ?_⟩
  · refine ⟨_, owner_request hr rfl hd nofun rfl, fun hm => ?_, fun hm => ?_⟩
    · have hc : carryOut (requestOf s p ⟨typeJoin, seq, a, payload⟩) (.join g m) (beforeOwner p seq a s) =
          replyTo (requestOf s p ⟨typeJoin, seq, a, payload⟩) .alreadyMember .none (beforeOwner p seq a s) :=
        if_pos ((congrArg Option.isSome (memberMode_beforeOwner p seq a s g p)).trans hm)
      rw [hc]
      exact plain_reply hr.1 _ _
    · have hno : ¬(memberMode (beforeOwner p seq a s) g p).isSome = true := by
        rw [memberMode_beforeOwner, hm]
        decide
      have hopen : isOpen (beforeOwner p seq a s) p = true := by
        rw [isOpen_congr (s := s) (by simp)]
        exact hr.1.2.1
      have hc : carryOut (requestOf s p ⟨typeJoin, seq, a, payload⟩) (.join g m) (beforeOwner p seq a s) =
          replyTo (requestOf s p ⟨typeJoin, seq, a, payload⟩) .ok .none
            (updDelivery p (Delivery.takeJoin g m)
              (setGroup g { s.groups[g] with members := s.groups[g].members.set p (some m) } (beforeOwner p seq a s))) := by
        simp only [carryOut, takeJoin]
        refine (if_neg hno).trans ?_
        rw [beforeOwner_groups]
        exact congrArg (replyTo _ .ok .none) (post_open (s := setGroup g _ _) hopen _)
      have ho : Owned s (updDelivery p (Delivery.takeJoin g m)
          (setGroup g { s.groups[g] with members := s.groups[g].members.set p (some m) } (beforeOwner p seq a s))) p seq a (Delivery.takeJoin g m) :=
        (owned_beforeOwner hr.1 a).change rfl rfl (updDelivery_get_same p _ _)
      obtain ⟨hans, hcomp, hserved⟩ := ho.answered (f := ⟨typeJoin, seq, a, payload⟩) (Or.inl rfl) .ok .none
      have hchange : (fun d : Delivery =>
          { d with armed := if m = .latched then addToSet d.armed g else d.armed, dissolved := removeFromSet d.dissolved g }) =
          Delivery.takeJoin g m := by
        cases m <;> rfl
      rw [hc, hchange]
      refine ⟨hans, ?_, otherPortsKept_of_servedIn hr.1.1 (fun q hq => ?_) hserved, by simp, ho.delivered hcomp⟩
      · simp [SamePanel, setGroup]
      · rw [updDelivery_get_ne hq]
        exact beforeOwner_delivery_ne hq seq a s
  · refine ⟨_, owner_request hr rfl hd nofun rfl, fun hm => ?_, fun hm => ?_⟩
    · have hc : carryOut (requestOf s p ⟨typeLeave, seq, a, payload⟩) (.leave g) (beforeOwner p seq a s) =
          replyTo (requestOf s p ⟨typeLeave, seq, a, payload⟩) .notMember .none (beforeOwner p seq a s) :=
        if_neg (by rw [show (requestOf s p ⟨typeLeave, seq, a, payload⟩).port = p from rfl, memberMode_beforeOwner, hm]; decide)
      rw [hc]
      exact plain_reply hr.1 _ _
    · have hopen : isOpen (beforeOwner p seq a s) p = true := by
        rw [isOpen_congr (s := s) (by simp)]
        exact hr.1.2.1
      have hm' : (memberMode (updDelivery p (Delivery.takeLeave g) (beforeOwner p seq a s)) g p).isSome = true := by
        rw [show memberMode (updDelivery p (Delivery.takeLeave g) (beforeOwner p seq a s)) g p = memberMode (beforeOwner p seq a s) g p from rfl,
          memberMode_beforeOwner]
        exact hm
      have hc : carryOut (requestOf s p ⟨typeLeave, seq, a, payload⟩) (.leave g) (beforeOwner p seq a s) =
          replyTo (requestOf s p ⟨typeLeave, seq, a, payload⟩) .ok .none
            (removeMember p (updDelivery p (Delivery.takeLeave g) (beforeOwner p seq a s)) g) := by
        have hpost : post p (Delivery.takeLeave g) (beforeOwner p seq a s) = updDelivery p (Delivery.takeLeave g) (beforeOwner p seq a s) :=
          post_open hopen _
        simp only [carryOut, takeLeave]
        refine (if_pos hm').trans ?_
        rw [← hpost]
        rfl
      have ho : Owned s (removeMember p (updDelivery p (Delivery.takeLeave g) (beforeOwner p seq a s)) g) p seq a (Delivery.takeLeave g) :=
        (owned_beforeOwner hr.1 a).change (by simp) (by simp) (by rw [removeMember_delivery, updDelivery_get_same])
      obtain ⟨hans, hcomp, hserved⟩ := ho.answered (f := ⟨typeLeave, seq, a, payload⟩) (Or.inl rfl) .ok .none
      rw [hc]
      refine ⟨hans, ?_, fun l => ?_, by simp, by simp, by simp, by simp, by simp, by simp,
        otherPortsKept_of_servedIn hr.1.1 (fun q hq => ?_) hserved, ho.delivered hcomp⟩
      · simp only [serveAll_groups, replyTo_groups]
        rw [removeMember_groups_eq hm', updDelivery_groups, beforeOwner_groups]
      · have hlamp : (serveAll (replyTo (requestOf s p ⟨typeLeave, seq, a, payload⟩) .ok .none
            (removeMember p (updDelivery p (Delivery.takeLeave g) (beforeOwner p seq a s)) g))).lamps[l] =
            (removeMember p (updDelivery p (Delivery.takeLeave g) (beforeOwner p seq a s)) g).lamps[l] := by simp
        refine hlamp.trans ((removeMember_lamps p _ g l).trans ?_)
        rw [← LampRec.blank_eq_darkened]
        refine if_congr (and_congr (by rw [updDelivery_lamps, beforeOwner_lamps]) ((removeMember_noMembers hm').trans ?_)) (by rw [updDelivery_lamps, beforeOwner_lamps])
          (by rw [updDelivery_lamps, beforeOwner_lamps])
        simp only [NoMembers, memberMode, serveAll_groups, replyTo_groups]
      · rw [removeMember_delivery, updDelivery_get_ne hq]
        exact beforeOwner_delivery_ne hq seq a s

/-- The number of a group's members, port by port (R54). -/
theorem memberCount_eq (s : State) (g : Group) :
    memberCount s.groups[g] = (if (memberMode s g .p0).isSome = true then 1 else 0) + (if (memberMode s g .p1).isSome = true then 1 else 0) +
      (if (memberMode s g .p2).isSome = true then 1 else 0) := by
  simp only [memberCount, memberMode, List.filter_cons, List.filter_nil]
  split <;> split <;> split <;> simp only [*, List.length_cons, List.length_nil, ↓reduceIte, reduceCtorEq, Nat.reduceAdd]

theorem memberCount_eq_zero {r : GroupRec} : memberCount r = 0 ↔ memberless r = true := by
  rw [memberless_iff_forall, memberCount, List.length_eq_zero_iff, List.filter_eq_nil_iff]
  simp only [Bool.not_eq_true, Option.isSome_eq_false_iff, Option.isNone_iff_eq_none]
  exact ⟨fun h p => h p (by cases p <;> decide), fun h p _ => h p⟩

/-- What a DISSOLVE makes of the part before its reply. -/
def dissolved (g : Group) (s : State) : State :=
  (if memberless s.groups[g] then id else blank g)
    ([Port.p0, Port.p1, Port.p2].foldl (postDissolve g s.groups[g].members) (setGroup g { s.groups[g] with members := PerPort.all none } s))

theorem carryOut_dissolve (r : Request) (g : Group) (s : State) :
    carryOut r (.dissolve g) s = replyTo r .ok (.removed (memberCount s.groups[g])) (raceChoice r.port (dissolved g s)) := by
  simp only [carryOut, takeDissolve, dissolved]
  split <;> rfl

theorem dissolved_keeps (g : Group) (s : State) :
    (dissolved g s).scan = s.scan ∧ (dissolved g s).keys = s.keys ∧
      (dissolved g s).groups = s.groups.set g.val { s.groups[g] with members := PerPort.all none } ∧ (dissolved g s).disp = s.disp ∧
      (dissolved g s).link = s.link ∧ (dissolved g s).mgr = s.mgr ∧ (dissolved g s).pins = s.pins ∧ (dissolved g s).pending = s.pending := by
  unfold dissolved
  split <;> simp [setGroup]

theorem dissolved_delivery (g : Group) (s : State) (q : Port) :
    (dissolved g s).delivery.get q =
      if (memberMode s g q).isSome = true ∧ isOpen s q = true then (s.delivery.get q).takeDissolve g else s.delivery.get q := by
  have hd : (dissolved g s).delivery.get q =
      ([Port.p0, Port.p1, Port.p2].foldl (postDissolve g s.groups[g].members)
        (setGroup g { s.groups[g] with members := PerPort.all none } s)).delivery.get q := by
    unfold dissolved
    split <;> rfl
  rw [hd, foldl_postDissolve_delivery]
  rfl

theorem dissolved_lamps (g : Group) (s : State) (l : Lamp) :
    (dissolved g s).lamps[l] = if s.lamps[l].group = some g ∧ memberCount s.groups[g] ≠ 0 then s.lamps[l].darkened else s.lamps[l] := by
  unfold dissolved
  by_cases h : memberless s.groups[g] = true
  · rw [if_pos h, if_neg fun e => e.2 (memberCount_eq_zero.mpr h)]
    simp
  · have hcount : memberCount s.groups[g] ≠ 0 := fun e => h (memberCount_eq_zero.mp e)
    rw [if_neg h, blank_get]
    simp only [List.foldl_cons, List.foldl_nil, postDissolve_keeps, setGroup_lamps, hcount, ne_eq, not_false_eq_true, and_true,
      LampRec.blank_eq_darkened]

/-- Settles O24. -/
theorem dissolveRequest : Obligations.DissolveRequest := by
  intro s p seq a payload g hr hadmin hmembers hd change one count
  have hcount : memberCount s.groups[g] = count := memberCount_eq s g
  have hopen : ∀ q, isOpen (beforeOwner p seq a s) q = isOpen s q := fun q => isOpen_congr (by simp) q
  have hdel : ∀ q, (dissolved g (beforeOwner p seq a s)).delivery.get q =
      if (memberMode s g q).isSome = true then ((beforeOwner p seq a s).delivery.get q).takeDissolve g
      else (beforeOwner p seq a s).delivery.get q := by
    intro q
    rw [dissolved_delivery, memberMode_beforeOwner, hopen]
    by_cases hm : (memberMode s g q).isSome = true
    · rw [if_pos hm, if_pos ⟨hm, (hmembers.1 q g hm).1⟩]
    · rw [if_neg hm, if_neg (fun e => hm e.1)]
  obtain ⟨k1, k2, k3, k4, k5, k6, k7, k8⟩ := dissolved_keeps g (beforeOwner p seq a s)
  have ho : Owned s (dissolved g (beforeOwner p seq a s)) p seq a (if (memberMode s g p).isSome = true then change else id) :=
    (owned_beforeOwner hr.1 a).change k5 (by rw [k6]) (by
      rw [hdel]
      split <;> rfl)
  obtain ⟨hans, hcomp, hserved⟩ := ho.answered (f := ⟨typeDissolve, seq, a, payload⟩) (Or.inr rfl) .ok (.removed count)
  refine ⟨_, owner_request hr rfl hd (fun _ => hadmin) rfl, ?_⟩
  rw [carryOut_dissolve, beforeOwner_groups, hcount]
  refine ⟨hans, ?_, fun l => ?_, ?_, ?_, ?_, ?_, ?_, ?_, ho.delivered hcomp, fun q hq => ?_⟩
  · simp [k3]
  · have hl : (serveAll (replyTo (requestOf s p ⟨typeDissolve, seq, a, payload⟩) .ok (.removed count)
        (raceChoice p (dissolved g (beforeOwner p seq a s))))).lamps[l] = (dissolved g (beforeOwner p seq a s)).lamps[l] := by simp
    refine hl.trans ?_
    rw [dissolved_lamps]
    simp only [beforeOwner_lamps, beforeOwner_groups, hcount]
  · simp [k1]
  · simp [k2]
  · simp [k4]
  · simp [k7]
  · simp [k8]
  · simp [k6]
  · have hs := hserved q hq
    rw [hdel, beforeOwner_delivery_ne hq] at hs
    split
    · rename_i hm
      rw [if_pos hm] at hs
      exact hs
    · rename_i hm
      rw [if_neg hm] at hs
      exact portKept_of_servedIn hr.1.1 hs

/-- Settles O25. -/
theorem grantRequest : Obligations.GrantRequest := by
  intro s p seq a payload n hr hd change
  have ho : Owned s (updDelivery p (Delivery.takeGrant n) (beforeOwner p seq a s)) p seq a change :=
    (owned_beforeOwner hr.1 a).change rfl rfl (updDelivery_get_same p _ _)
  have hdel : (updDelivery p (Delivery.takeGrant n) (beforeOwner p seq a s)).delivery.get p = change ((beforeOwner p seq a s).delivery.get p) :=
    updDelivery_get_same p _ _
  obtain ⟨hans, ⟨hcomp, hbusy⟩, hserved⟩ := ho.answered (f := ⟨typeGrant, seq, a, payload⟩) (Or.inr rfl) .ok
    (.credits ((change ((beforeOwner p seq a s).delivery.get p)).credits))
  have hc : carryOut (requestOf s p ⟨typeGrant, seq, a, payload⟩) (.grant n) (beforeOwner p seq a s) =
      replyTo (requestOf s p ⟨typeGrant, seq, a, payload⟩) .ok (.credits ((change ((beforeOwner p seq a s).delivery.get p)).credits))
        (raceChoice p (updDelivery p (Delivery.takeGrant n) (beforeOwner p seq a s))) := by
    rw [← hdel]
    rfl
  refine ⟨_, (beforeOwner p seq a s).delivery.get p, owner_request hr rfl hd nofun rfl, (beforeOwner_own p seq a s).2.2.2.2.2, ?_⟩
  rw [hdel] at hcomp hbusy
  rw [hc]
  refine ⟨hcomp, hans, fun e => ?_, by simp [SamePanel], otherPortsKept_of_servedIn hr.1.1 (fun q hq => ?_) hserved, by simp⟩
  · have hb : (beforeOwner p seq a s).delivery.get p = s.delivery.get p := by
      rw [beforeOwner_busy e]
      rfl
    exact ⟨hb, hbusy e⟩
  · rw [updDelivery_get_ne hq]
    exact beforeOwner_delivery_ne hq seq a s

end Sys2Proof.Machine

/-! ### The order of choice and the Delivery Unit (R74, R82 to R88, R132 to R137) -/

namespace Sys2Proof.Machine

/-- Settles O26. -/
theorem deliveryUnitEvents : Obligations.DeliveryUnitEvents := by
  intro d r number frame
  refine ⟨fun h => if_pos h, fun h => if_neg (Nat.not_lt.mpr h), Delivery.reportEligible_iff, ?_, rfl, ?_, rfl⟩
  · simp only [Delivery.noticeEligible, Bool.or_eq_true, bne_iff_ne, Option.isSome_iff_ne_none, or_assoc]
  · unfold Delivery.afterReport
    by_cases h : d.loss = 0 <;> simp [h]

theorem newFrame?_eq (run : Nat) (reply notice report : Bool) :
    newFrame? run reply notice report =
      if 4 ≤ run ∧ notice = true then some .notice
      else if 4 ≤ run ∧ report = true then some .report
      else if reply = true then some .reply
      else if notice = true then some .notice
      else if report = true then some .report
      else none := by
  unfold newFrame?
  by_cases h : run < Config.replyRun
  · have h' : ¬4 ≤ run := Nat.not_le.mpr h
    simp only [h, h', if_true, false_and, if_false]
  · have h' : 4 ≤ run := Nat.le_of_not_lt h
    cases notice <;> cases report <;> simp [h, h']

section

variable {n m : Word16} {l : Link} {d : Delivery}

/-- Rank 4 may give a frame: no burst is in progress and the resend list has room (R132). -/
theorem rank4_open (hb : l.burst = none) (hr : l.resend.length < 8) : (l.burst.isNone && decide (l.resend.length < Config.resendCapacity)) = true := by
  rw [hb]
  exact decide_eq_true hr

theorem rank4_reply (hb : l.burst = none) (hr : l.resend.length < 8) {r : Reply} {rest : List Reply}
    (h : newFrame? l.replyRun (!l.replies.isEmpty) d.noticeEligible d.reportEligible = some .reply) (hl : l.replies = r :: rest) :
    rank4 n m l d =
      some (Link.sendNew (.reply r) { l with replies := rest, replyRun := newRun l.replyRun .reply d.noticeEligible d.reportEligible }, d) := by
  simp only [rank4, rank4_open hb hr, if_true, h]
  simp only [hl]

theorem rank4_notice (hb : l.burst = none) (hr : l.resend.length < 8)
    (h : newFrame? l.replyRun (!l.replies.isEmpty) d.noticeEligible d.reportEligible = some .notice) :
    rank4 n m l d = some (Link.sendNew (.notice d.changed d.dissolved d.scanEntry) { l with replyRun := 0 }, d.afterNotice) := by
  simp only [rank4, rank4_open hb hr, if_true, h]

theorem rank4_report (hb : l.burst = none) (hr : l.resend.length < 8)
    (h : newFrame? l.replyRun (!l.replies.isEmpty) d.noticeEligible d.reportEligible = some .report) :
    rank4 n m l d = some (Link.sendNew (.report (d.queue.take d.reportSize)) { l with replyRun := 0 }, d.afterReport n m) := by
  simp only [rank4, rank4_open hb hr, if_true, h]

theorem rank4_none (h : l.burst ≠ none ∨ 8 ≤ l.resend.length ∨
    newFrame? l.replyRun (!l.replies.isEmpty) d.noticeEligible d.reportEligible = none) : rank4 n m l d = none := by
  cases hr : rank4 n m l d with
  | none => rfl
  | some x =>
    obtain ⟨hb, hlen, _⟩ := rank4_cases hr
    rcases h with h | h | h
    · exact absurd hb h
    · exact absurd h (Nat.not_le.mpr hlen)
    · rw [rank4, rank4_open hb hlen, h] at hr
      exact hr.symm

theorem rank4_ne_none (hb : l.burst = none) (hr : l.resend.length < 8)
    (h : newFrame? l.replyRun (!l.replies.isEmpty) d.noticeEligible d.reportEligible ≠ none) : rank4 n m l d ≠ none := by
  cases hx : newFrame? l.replyRun (!l.replies.isEmpty) d.noticeEligible d.reportEligible with
  | none => exact absurd hx h
  | some x =>
    cases x with
    | reply =>
      have hne := newFrame?_eq_reply hx
      cases hl : l.replies with
      | nil =>
        rw [hl] at hne
        cases hne
      | cons r rest =>
        rw [rank4_reply hb hr hx hl]
        exact Option.some_ne_none _
    | notice =>
      rw [rank4_notice hb hr hx]
      exact Option.some_ne_none _
    | report =>
      rw [rank4_report hb hr hx]
      exact Option.some_ne_none _

theorem Link.sendNew_eq (b : Body) (x : Link) :
    Link.sendNew b x =
      { x with
        nextSeq := x.nextSeq + 1, resend := x.resend ++ [{ seq := x.nextSeq, body := b }]
        retransmit := if x.resend = [] then x.retransmit.start x.rto else x.retransmit
        line := .sending { seq := x.nextSeq, ack := x.lastAccepted, body := b } (b.payload.length + 7)
        ackOwed := false, holdoff := x.holdoff.stop } := by
  simp only [Link.sendNew, Link.send, List.isEmpty_iff]
  rfl

end

/-- Settles O46. -/
theorem newFrameOrder : Obligations.NewFrameOrder := by
  refine ⟨newFrame?_eq, fun n m l d hb hr => ?_⟩
  intro sent next
  refine ⟨fun r rest h hl => ?_, fun h => ?_, fun h => ?_⟩
  · rw [rank4_reply hb hr h hl, Link.sendNew_eq]
    rfl
  · rw [rank4_notice hb hr h, Link.sendNew_eq]
  · rw [rank4_report hb hr h, Link.sendNew_eq]

theorem choice_ackDue {n m : Word16} {l : Link} {d : Delivery} (h1 : rank1 l = none) (h2 : rank2 l = none) (h3 : rank3 l = none)
    (h4 : rank4 n m l d = none) : choice n m l d = if l.ackDue = true then some (Link.send 0 .ack l, d) else none := by
  rw [choice_of_rank5 h1 h2 h3 h4, rank5]
  split <;> rfl

/-- Settles O45: the ranks in their order. -/
theorem choiceOrder : Obligations.ChoiceOrder := by
  intro n m l d
  refine ⟨fun i f hb hf => choice_burst hb hf, fun h1 st h2 => choice_of_rank2 h1 (rank2_some h2),
    fun h1 h2 h3 => choice_of_rank3 h1 (rank2_none h2) (rank3_some h3), fun h1 h2 h3 => ⟨fun h => ?_, fun hb hr h => ?_⟩, fun seq b => rfl⟩
  · exact choice_ackDue h1 (rank2_none h2) (rank3_none h3) (rank4_none h)
  · have h4 := rank4_ne_none (n := n) (m := m) hb hr h
    obtain ⟨x, hx⟩ := Option.ne_none_iff_exists'.mp h4
    exact ⟨(choice_of_rank4 h1 (rank2_none h2) (rank3_none h3) hx).trans hx.symm, h4⟩

end Sys2Proof.Machine

/-! ### What a transmitter's service gives, by what the choice finds -/

namespace Sys2Proof.Machine

section ServedIn

variable {t : State} {l l' : Link} {d d' : Delivery}

theorem ServedIn.busy (h : ServedIn t l l' d d') (hi : l.line.isIdle = false) : l' = l ∧ d' = d := by
  unfold ServedIn at h
  rw [hi] at h
  exact ⟨congrArg Prod.fst h, congrArg Prod.snd h⟩

theorem ServedIn.chosen (h : ServedIn t l l' d d') (hi : l.line.isIdle = true) {x : Link × Delivery}
    (hc : choice t.keys.transition t.scan.frameNumber l d = some x) : l' = x.1 ∧ d' = x.2 := by
  unfold ServedIn at h
  rw [if_pos hi, hc] at h
  exact ⟨congrArg Prod.fst h, congrArg Prod.snd h⟩

theorem ServedIn.nothing (h : ServedIn t l l' d d') (hc : choice t.keys.transition t.scan.frameNumber l d = none) : l' = l ∧ d' = d := by
  unfold ServedIn at h
  rw [hc, Option.getD_none, ite_self] at h
  exact ⟨congrArg Prod.fst h, congrArg Prod.snd h⟩

end ServedIn

/-- A port's transmitter is served once the port's Link Unit has changed. -/
theorem serve_own {s u : State} {p : Port} (hp : SamePanel s u) (hl : ∀ q, q ≠ p → u.link.get q = s.link.get q) (hd : u.delivery = s.delivery) :
    SamePanel s (serve p u) ∧ OtherPortsKept s (serve p u) p ∧
      ServedIn (serve p u) (u.link.get p) ((serve p u).link.get p) (s.delivery.get p) ((serve p u).delivery.get p) := by
  obtain ⟨p1, p2, p3, p4, p5, p6, p7⟩ := hp
  refine ⟨⟨?_, ?_, ?_, ?_, ?_, ?_, ?_⟩, fun q hq => ⟨?_, ?_⟩, ?_⟩
  · rw [serve_scan, p1]
  · rw [serve_keys, p2]
  · rw [serve_groups, p3]
  · rw [serve_disp, p4]
  · rw [serve_lamps, p5]
  · rw [serve_pins, p6]
  · rw [serve_pending, p7]
  · rw [serve_link_ne hq, hl q hq]
  · rw [serve_delivery_ne hq, hd]
  · rw [← hd]
    exact serve_servedIn p u

/-- The same, the change being one of the Link Unit alone. -/
theorem serve_updLink (p : Port) (f : Link → Link) (s : State) :
    SamePanel s (serve p (updLink p f s)) ∧ OtherPortsKept s (serve p (updLink p f s)) p ∧ (serve p (updLink p f s)).mgr = s.mgr ∧
      ServedIn (serve p (updLink p f s)) (f (s.link.get p)) ((serve p (updLink p f s)).link.get p) (s.delivery.get p)
        ((serve p (updLink p f s)).delivery.get p) := by
  obtain ⟨h1, h2, h3⟩ := serve_own (s := s) (u := updLink p f s) (p := p) ⟨rfl, rfl, rfl, rfl, rfl, rfl, rfl⟩
    (fun q hq => updLink_get_ne hq f s) rfl
  rw [updLink_get_same] at h3
  exact ⟨h1, h2, by rw [serve_mgr, updLink_mgr], h3⟩

/-! ### What a good frame's ACK byte does -/

theorem takeGoodFrame_reset {s : State} {p : Port} {f : RxFrame} (h : ackEndsReset p f.ack s = true) : takeGoodFrame p f s = fullReset s :=
  if_pos h

theorem takeGoodFrame_ack {s : State} {p : Port} {f : RxFrame} (h : ackEndsReset p f.ack s = false) (ht : f.typ = typeAck) :
    takeGoodFrame p f s = serve p (takeAckByte p f.ack s) := by
  simp only [takeGoodFrame, h, Bool.false_eq_true, if_false, if_pos ht]

theorem takeGoodFrame_request {s : State} {p : Port} {f : RxFrame} (h : ackEndsReset p f.ack s = false) (hta : f.typ ≠ typeAck)
    (hto : f.typ ≠ typeOpen) : takeGoodFrame p f s = takeRequestFrame p f (takeAckByte p f.ack s) := by
  simp only [takeGoodFrame, h, Bool.false_eq_true, if_false, if_neg hta, if_neg hto]

theorem takeGoodFrame_open {s : State} {p : Port} {f : RxFrame} (h : ackEndsReset p f.ack s = false) (ht : f.typ = typeOpen) :
    takeGoodFrame p f s = finish (takeOpenFrame p f (takeAckByte p f.ack s)) := by
  have hta : f.typ ≠ typeAck := by
    rw [ht]
    decide
  simp only [takeGoodFrame, h, Bool.false_eq_true, if_false, if_neg hta, if_pos ht]

theorem takeAckByte_mgr (p : Port) (a : Byte) (s : State) :
    (ackEndsClosing p a s = false → (takeAckByte p a s).mgr = s.mgr) ∧
      (ackEndsClosing p a s = true →
        (takeAckByte p a s).mgr = { s.mgr with sessions := s.mgr.sessions.set p { sessionOf s p with state := .closed } }) := by
  constructor <;> intro h <;> simp only [takeAckByte, h, Bool.false_eq_true, if_false, if_true] <;> rfl

/-- The ACK byte read and the transmitter served, the Link Unit changed once more between the two. -/
theorem serve_takeAckByte (p : Port) (a : Byte) (f : Link → Link) (s : State) :
    SamePanel s (serve p (updLink p f (takeAckByte p a s))) ∧ OtherPortsKept s (serve p (updLink p f (takeAckByte p a s))) p ∧
      ServedIn (serve p (updLink p f (takeAckByte p a s))) (f ((s.link.get p).readAck a)) ((serve p (updLink p f (takeAckByte p a s))).link.get p)
        (s.delivery.get p) ((serve p (updLink p f (takeAckByte p a s))).delivery.get p) := by
  obtain ⟨k1, k2, k3, k4, k5, k6, k7, k8, k9, _⟩ := takeAckByte_keeps p a s
  have hown := serve_own (s := s) (u := updLink p f (takeAckByte p a s)) (p := p) ⟨k1, k2, k3, k4, k6, k8, k9⟩
    (fun q hq => by rw [updLink_get_ne hq, k7, updLink_get_ne hq]) k5
  rw [updLink_get_same, k7, updLink_get_same] at hown
  exact hown

theorem updLink_id (p : Port) (s : State) : updLink p (fun l => l) s = s := by
  simp only [updLink, PerPort.set_get]

/-! ### The resend list after an ACK byte (R115) -/

theorem ackedCount_eq_zero {resend : List SentFrame} {a : Byte} (h : ∀ f ∈ resend, f.seq ≠ a) : ackedCount resend a = 0 := by
  unfold ackedCount
  rw [List.findIdx?_eq_none_iff.mpr fun f hf => beq_eq_false_iff_ne.mpr (h f hf)]

theorem ackedCount_append {before after : List SentFrame} {f : SentFrame} {a : Byte} (hf : f.seq = a) (h : ∀ b ∈ before, b.seq ≠ a) :
    ackedCount (before ++ f :: after) a = before.length + 1 := by
  have hb : before.findIdx? (fun f => f.seq == a) = none := List.findIdx?_eq_none_iff.mpr fun f hf => beq_eq_false_iff_ne.mpr (h f hf)
  have hf' : (f.seq == a) = true := beq_iff_eq.mpr hf
  unfold ackedCount
  rw [List.findIdx?_append, hb, List.findIdx?_cons, hf']
  simp

theorem drop_ackedCount {before after : List SentFrame} {f : SentFrame} {a : Byte} (hf : f.seq = a) (h : ∀ b ∈ before, b.seq ≠ a) :
    (before ++ f :: after).drop (ackedCount (before ++ f :: after) a) = after := by
  rw [ackedCount_append hf h, ← List.drop_drop, List.drop_left]
  rfl

theorem Link.readAck_eq (a : Byte) (l : Link) :
    l.readAck a =
      { l with
        resend := (l.readAck a).resend, retry := (l.readAck a).retry, burst := (l.readAck a).burst, retransmit := (l.readAck a).retransmit } := by
  simp only [Link.readAck]
  split <;> rfl

/-- Settles O41: the ACK byte is read, then the transmitter is served. -/
theorem ackFrame : Obligations.AckFrame := by
  refine ⟨⟨fun s p seq a payload _ hack => ?_, fun s p i f hi hack => ?_⟩, fun l a => ⟨fun h => ?_, fun before after f hl hf hb => ?_⟩⟩
  · refine ⟨_, (exec_of_frame rfl s).trans (congrArg _ (takeGoodFrame_ack hack rfl)), ?_⟩
    have h := serve_takeAckByte p a (fun l => l) s
    rw [updLink_id] at h
    obtain ⟨h1, h2, h3⟩ := h
    rw [serve_mgr]
    exact ⟨h1, h2, h3, (takeAckByte_mgr p a s).1, (takeAckByte_mgr p a s).2⟩
  · rw [exec_of_frame hi, takeGoodFrame_reset hack]
    rfl
  · exact Link.readAck_unknown (ackedCount_eq_zero h)
  · have hn : ackedCount l.resend a = before.length + 1 := by
      rw [hl]
      exact ackedCount_append hf hb
    have hn0 : ackedCount l.resend a ≠ 0 := by
      rw [hn]
      exact Nat.succ_ne_zero _
    have hdrop : l.resend.drop (ackedCount l.resend a) = after := by
      rw [hl]
      exact drop_ackedCount hf hb
    cases after with
    | nil =>
      rw [Link.readAck_last hn0 hdrop]
      exact ⟨rfl, rfl, fun _ => ⟨rfl, rfl⟩, fun h => absurd rfl h, fun _ h => absurd rfl h, rfl⟩
    | cons x rest =>
      have hmore := Link.readAck_more hn0 (by rw [hdrop]; exact List.cons_ne_nil x rest)
      rw [hdrop, hn] at hmore
      rw [hmore]
      refine ⟨rfl, rfl, nofun, fun _ e => ?_, fun n _ e => ?_, rfl⟩
      · simp only [e, Option.map_none, Option.isNone_none, if_true, and_self]
      · simp only [e, Option.map_some, Option.isNone_some, Bool.false_eq_true, if_false, and_self]

/-! ### The timers and the end of a frame (R123 to R127, R131, R133) -/

section Ranks

variable {n m : Word16} {l : Link} {d : Delivery}

theorem rank2_eq_none : rank2 l = none ↔ l.openRefused = none := by
  unfold rank2
  split <;> simp [*]

theorem rank3_eq_none : rank3 l = none ↔ l.noSession = false := by
  unfold rank3
  split <;> simp [*]

/-- No rank above the ACK gives a frame: what this asks of the Link Unit and the Delivery Unit (R132). -/
def NothingAboveAck (l : Link) (d : Delivery) : Prop :=
  (∀ i, l.burst = some i → l.resend[i]? = none) ∧ l.openRefused = none ∧ l.noSession = false ∧
    (l.burst ≠ none ∨ 8 ≤ l.resend.length ∨ newFrame? l.replyRun (!l.replies.isEmpty) d.noticeEligible d.reportEligible = none)

theorem nothingAboveAck_of_none (h : choice n m l d = none) : NothingAboveAck l d := by
  have h1 : rank1 l = none := by
    by_contra hne
    obtain ⟨x, hx⟩ := Option.ne_none_iff_exists'.mp hne
    rw [choice_of_rank1 hx] at h
    cases h
  have h2 : rank2 l = none := by
    by_contra hne
    obtain ⟨x, hx⟩ := Option.ne_none_iff_exists'.mp hne
    rw [choice_of_rank2 h1 hx] at h
    cases h
  have h3 : rank3 l = none := by
    by_contra hne
    obtain ⟨x, hx⟩ := Option.ne_none_iff_exists'.mp hne
    rw [choice_of_rank3 h1 h2 hx] at h
    cases h
  refine ⟨fun i hi => ?_, rank2_eq_none.mp h2, rank3_eq_none.mp h3, ?_⟩
  · by_contra hne
    obtain ⟨x, hx⟩ := Option.ne_none_iff_exists'.mp hne
    rw [choice_burst hi hx] at h
    cases h
  · by_contra hne
    simp only [not_or, not_not, Nat.not_le] at hne
    obtain ⟨hb, hlen, hnew⟩ := hne
    obtain ⟨x, hx⟩ := Option.ne_none_iff_exists'.mp (rank4_ne_none (n := n) (m := m) hb hlen hnew)
    rw [choice_of_rank4 h1 h2 h3 hx] at h
    cases h

theorem NothingAboveAck.choice (h : NothingAboveAck l d) : choice n m l d = if l.ackDue = true then some (Link.send 0 .ack l, d) else none := by
  obtain ⟨h1, h2, h3, h4⟩ := h
  have hrank1 : rank1 l = none := by
    cases hb : l.burst with
    | none => exact rank1_none hb
    | some i => simp only [rank1, hb, h1 i hb]
  exact choice_ackDue hrank1 (rank2_none h2) (rank3_none h3) (rank4_none h4)

end Ranks

/-- A settled port whose line is IDLE has nothing to send above an ACK. -/
theorem Settled.nothingAboveAck {s : State} {p : Port} (h : Settled s) (hi : lineIdle p s = true) :
    NothingAboveAck (s.link.get p) (s.delivery.get p) := nothingAboveAck_of_none (chooseFrame_eq_none.mp (h.2 p hi))

/-- Settles O44: an ACK that is due is the last of the ranks; a frame's end frees the line and the next choice is made. -/
theorem holdoffAndFrameEnd : Obligations.HoldoffAndFrameEnd := by
  refine ⟨fun s p h => ?_, fun s p hs hrun => ?_, fun s p hi => ?_, fun s p hb => ?_⟩
  · simp only [exec, execAckHoldoffExpiry, takeHoldoffExpiry, h, Bool.false_eq_true, if_false]
  · intro l
    have hex : exec (.ackHoldoffExpiry p) s = .next (serve p (updLink p (fun l => { l with holdoff := l.holdoff.stop }) s)) := by
      simp only [exec, execAckHoldoffExpiry, takeHoldoffExpiry, hrun, if_true]
    obtain ⟨hp, ho, hm, hserved⟩ := serve_updLink p (fun l => { l with holdoff := l.holdoff.stop }) s
    have hchoice : lineIdle p s = true → ∀ n m : Word16, choice n m { l with holdoff := l.holdoff.stop } (s.delivery.get p) =
        if l.ackOwed = true then some (Link.send 0 .ack { l with holdoff := l.holdoff.stop }, s.delivery.get p) else none := by
      intro hi n m
      have h : NothingAboveAck { l with holdoff := l.holdoff.stop } (s.delivery.get p) := hs.nothingAboveAck hi
      rw [h.choice]
      simp only [Link.ackDue, Timer.running_stop, Bool.not_false, Bool.and_true]
    refine ⟨_, hex, hp, ho, hm, ?_, fun hi => (hserved.busy hi).1, fun hi howed => ?_⟩
    · cases hi : lineIdle p s with
      | false => exact (hserved.busy hi).2
      | true =>
        cases howed : l.ackOwed with
        | false => exact (hserved.nothing (by rw [hchoice hi, howed]; rfl)).2
        | true => exact (hserved.chosen hi (by rw [hchoice hi, howed]; rfl)).2
    · exact (hserved.chosen hi (by rw [hchoice hi, howed]; rfl)).1
  · simp only [exec, execFrameTransmitEnd, takeFrameEnd, hi, if_true]
  · intro l
    have hex : exec (.frameTransmitEnd p) s = .next (serve p (updLink p Link.endFrame s)) := by
      simp only [exec, execFrameTransmitEnd, takeFrameEnd, hb, Bool.false_eq_true, if_false]
    obtain ⟨hp, ho, hm, hserved⟩ := serve_updLink p Link.endFrame s
    refine ⟨_, l.endFrame, hex, fun h => ?_, fun n h => ?_, hp, ho, hm, ?_⟩
    · simp only [Link.endFrame, h]
    · simp only [Link.endFrame, h]
    · have hidle : l.endFrame.line.isIdle = true := Link.endFrame_idle l
      have hnumbers : choice (serve p (updLink p Link.endFrame s)).keys.transition (serve p (updLink p Link.endFrame s)).scan.frameNumber =
          choice s.keys.transition s.scan.frameNumber := by rw [hp.1, hp.2.1]
      cases hc : choice s.keys.transition s.scan.frameNumber l.endFrame (s.delivery.get p) with
      | none => exact hserved.nothing (by rw [hnumbers]; exact hc)
      | some x => exact hserved.chosen hidle (by rw [hnumbers]; exact hc)

end Sys2Proof.Machine

/-! ### Requests that are not accepted, and the retransmit timer (R116, R118, R123 to R126, R146, R147) -/

namespace Sys2Proof.Machine

section TakeRequestFrame

variable {s : State} {p : Port} {f : RxFrame}

theorem takeRequestFrame_closed (h : (sessionOf s p).state = .closed) :
    takeRequestFrame p f s = serve p (updLink p (fun l => { l with noSession := true }) s) := by
  simp only [takeRequestFrame, h]

theorem takeRequestFrame_closing (h : (sessionOf s p).state = .closing) : takeRequestFrame p f s = serve p s := by
  simp only [takeRequestFrame, h]

theorem takeRequestFrame_noPlace (h : isOpen s p = true) (hseq : f.seq = (s.link.get p).lastAccepted + 1)
    (hpl : 4 ≤ (s.link.get p).places) : takeRequestFrame p f s = serve p s := by
  have hv : verdict s p f.seq = .noPlace := (if_pos hseq).trans (if_neg (Nat.not_lt.mpr hpl))
  simp only [takeRequestFrame, open_state h, hv]

theorem takeRequestFrame_otherSeq (h : isOpen s p = true) (hseq : f.seq ≠ (s.link.get p).lastAccepted + 1) :
    takeRequestFrame p f s = serve p (updLink p Link.oweAck s) := by
  have hv : verdict s p f.seq = .duplicate ∨ verdict s p f.seq = .outOfWindow := by
    simp only [verdict, judge, if_neg hseq]
    split
    · exact Or.inl rfl
    · exact Or.inr rfl
  rcases hv with hv | hv <;> simp only [takeRequestFrame, open_state h, hv]

end TakeRequestFrame

/-- After its ACK byte a session is CLOSED if it was, or if that byte ended its CLOSING. -/
theorem takeAckByte_closed {s : State} {p : Port} {a : Byte} (h : (sessionOf s p).state = .closed ∨ ackEndsClosing p a s = true) :
    (sessionOf (takeAckByte p a s) p).state = .closed := by
  unfold takeAckByte
  cases hc : ackEndsClosing p a s with
  | true => simp only [if_true, endClosing, sessionOf_setSession_same]
  | false =>
    rw [hc] at h
    rcases h with h | h
    · exact h
    · cases h

/-- A NO SESSION goes out at once on an IDLE line with no burst and no OPEN REFUSED pending (R134). -/
theorem ServedIn.noSession {t : State} {l l' : Link} {d d' : Delivery} (h : ServedIn t { l with noSession := true } l' d d')
    (hi : l.line.isIdle = true) (hb : l.burst = none) (ho : l.openRefused = none) :
    l' = { l with
        noSession := false, ackOwed := false, holdoff := l.holdoff.stop
        line := .sending { seq := 0, ack := l.lastAccepted, body := .noSession } 7 } ∧ d' = d :=
  h.chosen (x := (_, d)) hi (choice_of_rank3 (rank1_none hb) (rank2_none ho) (rank3_some rfl))

/-- Settles O42: by the session's state and the SEQ's verdict. -/
theorem requestsNotAccepted : Obligations.RequestsNotAccepted := by
  refine ⟨fun s p i f _ hopen hack hi hta hto => ?_, fun s p i f _ hack hi hta hto => ?_⟩
  · intro l
    have hak := takeAckByte_open hopen f.ack
    have hopen' : isOpen (updLink p (Link.readAck f.ack) s) p = true := hopen
    have hlast : ((updLink p (Link.readAck f.ack) s).link.get p).lastAccepted = l.lastAccepted := by
      rw [updLink_get_same]
      exact (Link.readAck_keeps f.ack l).1
    have hplaces : ((updLink p (Link.readAck f.ack) s).link.get p).places = l.places := by
      obtain ⟨_, _, _, _, hheld, hreplies, _⟩ := Link.readAck_keeps f.ack l
      rw [updLink_get_same, Link.places, hheld, hreplies]
      rfl
    refine ⟨_, (exec_of_frame hi s).trans (congrArg _ (takeGoodFrame_request hack hta hto)), fun ⟨hseq, hpl⟩ => ?_, fun hseq => ?_⟩
    · rw [hak, takeRequestFrame_noPlace hopen' (by rw [hlast]; exact hseq) (by rw [hplaces]; exact hpl)]
      obtain ⟨h1, h2, h3, h4⟩ := serve_updLink p (Link.readAck f.ack) s
      exact ⟨h4, h1, h2, h3⟩
    · rw [hak, takeRequestFrame_otherSeq hopen' (by rw [hlast]; exact hseq), updLink_updLink]
      obtain ⟨h1, h2, h3, h4⟩ := serve_updLink p (fun l => (l.readAck f.ack).oweAck) s
      exact ⟨h4, h1, h2, h3⟩
  · intro l
    refine ⟨_, (exec_of_frame hi s).trans (congrArg _ (takeGoodFrame_request hack hta hto)), fun hclosed => ?_, fun hclosing hno => ?_⟩
    · rw [takeRequestFrame_closed (takeAckByte_closed hclosed)]
      obtain ⟨h1, h2, h3⟩ := serve_takeAckByte p f.ack (fun l => { l with noSession := true }) s
      refine ⟨h1, h2, fun h => ?_, fun h => ?_, h3, fun hidle hb ho => ?_⟩
      · rw [serve_mgr, updLink_mgr, (takeAckByte_mgr p f.ack s).1 h]
      · rw [serve_mgr, updLink_mgr, (takeAckByte_mgr p f.ack s).2 h]
      · obtain ⟨_, _, _, _, _, _, hline, _⟩ := Link.readAck_keeps f.ack (s.link.get p)
        exact h3.noSession (by rw [hline]; exact hidle) hb ho
    · have hsame : takeAckByte p f.ack s = updLink p (Link.readAck f.ack) s := by
        simp only [takeAckByte, hno, Bool.false_eq_true, if_false]
      rw [hsame, takeRequestFrame_closing (s := updLink p (Link.readAck f.ack) s) hclosing]
      obtain ⟨h1, h2, h3, h4⟩ := serve_updLink p (Link.readAck f.ack) s
      exact ⟨h1, h2, h3, h4⟩

theorem finish_settled {s : State} (h : Settled s) : finish s = s := by
  rw [finish_quiet h.1]
  exact serveAll_nothing h.2

/-- What a teardown leaves of the groups and the lamps. -/
theorem portRemoved_teardown (p : Port) (st : SessionState) (s : State) : PortRemoved s (teardown p st s) p := by
  refine ⟨fun g => teardown_groups p st s g, fun l => ?_⟩
  have hempty : ∀ g, leavesEmpty p s g = true ↔ (memberMode s g p).isSome = true ∧ NoMembers (teardown p st s) g := by
    intro g
    rw [← memberless_iff, teardown_groups, leavesEmpty, Bool.and_eq_true]
  rw [teardown_lamps]
  cases hg : s.lamps[l].group with
  | none => simp
  | some g =>
    rw [← LampRec.blank_eq_darkened]
    refine if_congr ?_ rfl rfl
    rw [← hempty]
    simp

theorem sessionEnded_teardown (p : Port) (st : SessionState) (s : State) : SessionEnded s (teardown p st s) p st :=
  ⟨teardown_session_same p st s, fun _ hq => teardown_session_ne hq st s, teardown_adminClaim p st s, teardown_resetInFlight p st s,
    teardown_handed p st s⟩

/-- Nothing follows a teardown in a part where nothing followed. -/
theorem internal_teardown {s : State} (h : internal s = none) (p : Port) (st : SessionState) : internal (teardown p st s) = none := by
  refine internal_none_of h ?_ (fun q a ha => ?_) (teardown_handed p st s) fun q hq => ?_
  · rw [scannerEvent_eq_none, teardown_disp, teardown_scan]
    exact scannerEvent_eq_none.mp (internal_eq_none.mp h).1
  · rw [ownerReady_congr (s := s) (teardown_disp p st s) (by rw [teardown_scan])] at ha
    exact ha
  · rw [teardown_inbox, PerPort.get_set]
    split
    · rfl
    · exact hq

/-- An empty Delivery Unit stays empty, whatever its transmitter chooses. -/
theorem Delivery.Chosen.of_empty {n f : Word16} {d : Delivery} (h : Delivery.Chosen n f Delivery.empty d) : d = Delivery.empty := by
  rcases h with rfl | rfl | rfl <;> rfl

theorem serveAll_delivery_empty {s : State} {p : Port} (h : s.delivery.get p = Delivery.empty) : (serveAll s).delivery.get p = Delivery.empty := by
  rcases serveAll_spec p s with ⟨_, e⟩ | ⟨_, _, hd⟩
  · rw [e, h]
  · rw [h] at hd
    exact hd.of_empty

/-- SessionEnded and PortRemoved speak of the sessions, groups and lamps alone. -/
theorem SessionEnded.congr {s s' t t' : State} {p : Port} {st : SessionState} (h : SessionEnded s t p st) (hs : s.mgr = s'.mgr)
    (ht : t'.mgr = t.mgr) : SessionEnded s' t' p st := by
  unfold SessionEnded sessionOf at h ⊢
  rw [ht, ← hs]
  exact h

theorem PortRemoved.congr {s s' t t' : State} {p : Port} (h : PortRemoved s t p) (hs : s.groups = s'.groups ∧ s.lamps = s'.lamps)
    (hg : t'.groups = t.groups) (hl : t'.lamps = t.lamps) : PortRemoved s' t' p := by
  unfold PortRemoved NoMembers memberMode at h ⊢
  rw [hg, hl, ← hs.1, ← hs.2]
  exact h

/-- Settles O43: a burst of the whole list, or, at the retry limit, the end of the session. -/
theorem retransmitExpiry : Obligations.RetransmitExpiry := by
  refine ⟨fun s p h => ?_, fun s p _ hrun hretry => ?_, fun s p hs hrun hretry => ?_⟩
  · simp only [exec, execRetransmitTimerExpiry, takeRetransmitExpiry, h, Bool.false_eq_true, if_false]
  · intro l b
    have hex : exec (.retransmitTimerExpiry p) s =
        .next (serve p (updLink p (fun l => { l with retransmit := l.retransmit.stop, retry := l.retry + 1, burst := some 0 }) s)) := by
      simp only [exec, execRetransmitTimerExpiry, takeRetransmitExpiry, hrun, if_true]
      exact congrArg _ (if_neg (Nat.not_le.mpr hretry))
    obtain ⟨hp, ho, hm, hserved⟩ :=
      serve_updLink p (fun l => { l with retransmit := l.retransmit.stop, retry := l.retry + 1, burst := some 0 }) s
    refine ⟨_, hex, hp, ho, hm, fun hi => hserved.busy hi, fun f rest hi hl => ?_⟩
    have hc := hserved.chosen hi (choice_burst (i := 0) (fr := f) rfl (by rw [show b.resend = f :: rest from hl]; rfl))
    exact ⟨hc.2, hc.1⟩
  · intro l gone
    have hex : exec (.retransmitTimerExpiry p) s = .next (finish (retryLimitReached p (updLink p Link.giveUp s))) := by
      simp only [exec, execRetransmitTimerExpiry, takeRetransmitExpiry, hrun, if_true]
      exact congrArg _ (if_pos hretry)
    have hgone : (updLink p Link.giveUp s).link.get p = gone := updLink_get_same p _ s
    have hquiet : internal (updLink p Link.giveUp s) = none := internal_none_congr (s := s) rfl rfl rfl rfl rfl hs.1
    have hnoReset : (∀ n : Nat, s.mgr.resetInFlight ≠ some (p, n)) → resetOn (updLink p Link.giveUp s) p = false := by
      intro h
      unfold resetOn
      cases hr : (updLink p Link.giveUp s).mgr.resetInFlight with
      | none => rfl
      | some x => exact beq_eq_false_iff_ne.mpr fun e => h x.2 (hr.trans (by rw [← e]))
    refine ⟨_, hex, fun ⟨n, hn⟩ => ?_, fun hno hopen => ?_, fun hno hclosing => ?_⟩
    · have hon : resetOn (updLink p Link.giveUp s) p = true := by
        simp only [resetOn, updLink_mgr, hn, Option.any_some, beq_self_eq_true]
      rw [retryLimitReached, if_pos hon, finish_settled (settled_fullReset _)]
      rfl
    · have hstate : (sessionOf (updLink p Link.giveUp s) p).state = .open := open_state hopen
      have hc : retryLimitReached p (updLink p Link.giveUp s) = teardown p .closed (updLink p Link.giveUp s) := by
        simp only [retryLimitReached, hnoReset hno, hstate, Bool.false_eq_true, if_false]
      have hempty := teardown_delivery_same p .closed (updLink p Link.giveUp s)
      rw [hc, finish_quiet (internal_teardown hquiet p .closed)]
      refine ⟨(sessionEnded_teardown p .closed (updLink p Link.giveUp s)).congr rfl (serveAll_mgr _),
        (portRemoved_teardown p .closed (updLink p Link.giveUp s)).congr ⟨rfl, rfl⟩ (serveAll_groups _) (serveAll_lamps _),
        serveAll_delivery_empty hempty, ?_, fun q hq => portKept_of_serveAll hs ?_ ?_, by simp, by simp, by simp, by simp, by simp⟩
      · have h := servedIn_serveAll p (teardown p .closed (updLink p Link.giveUp s))
        rw [hempty, teardown_link, hgone] at h
        exact h
      · rw [teardown_link, updLink_get_ne hq]
      · rw [teardown_delivery_ne hq, updLink_delivery]
    · have hstate : (sessionOf (updLink p Link.giveUp s) p).state = .closing := hclosing
      have hc : retryLimitReached p (updLink p Link.giveUp s) = endClosing p (updLink p Link.giveUp s) := by
        simp only [retryLimitReached, hnoReset hno, hstate, Bool.false_eq_true, if_false]
      have hquiet' : internal (endClosing p (updLink p Link.giveUp s)) = none :=
        internal_none_congr (s := updLink p Link.giveUp s) rfl rfl rfl rfl rfl hquiet
      rw [hc, finish_quiet hquiet']
      refine ⟨by rw [serveAll_mgr]; rfl, ?_, fun q hq => portKept_of_serveAll hs ?_ rfl, ?_⟩
      · simp [SamePanel, endClosing]
      · rw [endClosing, setSession_link, updLink_get_ne hq]
      · have h := servedIn_serveAll p (endClosing p (updLink p Link.giveUp s))
        rw [endClosing, setSession_link, hgone] at h
        exact h

end Sys2Proof.Machine

/-! ### The framer, byte by byte (R112 to R114) -/

namespace Sys2Proof.Machine

/-! #### One byte -/

section Take

variable {f : Framer} {b : Byte}

theorem Framer.holdsBadFrame_hunt (h : f.state = .hunt) : f.holdsBadFrame = false := by
  simp only [Framer.holdsBadFrame, h]
  rfl

theorem Framer.holdsBadFrame_empty (h : f.buffer = []) : f.holdsBadFrame = false := by
  simp only [Framer.holdsBadFrame, h, bufferFull, Bool.and_false]

theorem Framer.holdsBadFrame_part {len : Byte} {rest : List Byte} (h : f.buffer = len :: rest) (hl : rest.length < len.toNat + 2) :
    f.holdsBadFrame = false := by
  simp only [Framer.holdsBadFrame, h, bufferFull_cons, decide_eq_false (Nat.not_le.mpr hl), Bool.and_false]

theorem Framer.take_hunt_fault (h : f.state = .hunt) : f.take { value := b, fault := true } = (f, none) := by
  simp only [Framer.take, h, if_true]

theorem Framer.take_hunt (h : f.state = .hunt) : f.take { value := b, fault := false } = (f.hunt b, none) := by
  simp only [Framer.take, h, Bool.false_eq_true, if_false]

theorem Framer.take_collect_fault (h : f.state = .collect) : f.take { value := b, fault := true } = (f.abandon, none) := by
  simp only [Framer.take, h, if_true]

theorem Framer.take_collect_badLen (h : f.state = .collect) (hb : f.buffer = []) (hl : lenInRange b = false) :
    f.take { value := b, fault := false } = (f.hunt b, none) := by
  simp only [Framer.take, h, hb, hl, Bool.false_eq_true, if_false, List.isEmpty_nil, Bool.not_false, Bool.and_self, if_true]

theorem lenInRange_iff : lenInRange b = true ↔ 3 ≤ b.toNat ∧ b.toNat ≤ 67 := decide_eq_true_iff

theorem Framer.take_collect_len (h : f.state = .collect) (hb : f.buffer = []) (hl : lenInRange b = true) :
    f.take { value := b, fault := false } = ({ f with buffer := [b], gapRunning := true }, none) := by
  have hfull : bufferFull [b] = false := by
    rw [bufferFull_cons]
    exact decide_eq_false (by simp)
  simp only [Framer.take, h, hb, hl, Bool.false_eq_true, if_false, Bool.not_true, Bool.and_false, Framer.store, List.nil_append, hfull]

theorem Framer.take_collect_next (h : f.state = .collect) (hb : f.buffer ≠ []) : f.take { value := b, fault := false } = f.store b := by
  simp only [Framer.take, h, Bool.false_eq_true, if_false, List.isEmpty_eq_false_iff.mpr hb, Bool.false_and]

theorem bufferFull_snoc (len b : Byte) (rest : List Byte) : bufferFull (len :: rest ++ [b]) = decide (len.toNat + 2 ≤ rest.length + 1) := by
  rw [List.cons_append, bufferFull_cons, List.length_append, List.length_singleton]

theorem Framer.take_collect_part {len : Byte} {rest : List Byte} (h : f.state = .collect) (hb : f.buffer = len :: rest)
    (hl : rest.length + 1 < len.toNat + 2) :
    f.take { value := b, fault := false } = ({ f with buffer := f.buffer ++ [b], gapRunning := true }, none) := by
  have hfull : bufferFull (f.buffer ++ [b]) = false := by
    rw [hb, bufferFull_snoc]
    exact decide_eq_false (Nat.not_le.mpr hl)
  rw [Framer.take_collect_next h (by rw [hb]; exact List.cons_ne_nil _ _)]
  simp only [Framer.store, hfull, Bool.false_eq_true, if_false]

theorem Framer.take_collect_last {len : Byte} {rest : List Byte} (h : f.state = .collect) (hb : f.buffer = len :: rest)
    (hl : rest.length + 1 = len.toNat + 2) :
    f.take { value := b, fault := false } =
      match goodFrame? (f.buffer ++ [b]) with
      | some x => (f.abandon, some x)
      | none => ({ f with buffer := f.buffer ++ [b], gapRunning := false }, none) := by
  have hfull : bufferFull (f.buffer ++ [b]) = true := by
    rw [hb, bufferFull_snoc]
    exact decide_eq_true (Nat.le_of_eq hl.symm)
  exact (Framer.take_collect_next h (by rw [hb]; exact List.cons_ne_nil _ _)).trans (if_pos hfull)

end Take

section Feed

variable {s : State} {p : Port}

theorem feed_quiet {x : RxByte} {fr : Framer} (h : (framerOf s p).take x = (fr, none)) : feed p x s = setFramer p fr s := by
  simp only [feed, h]

theorem feed_delivers {x : RxByte} {fr : Framer} {f : RxFrame} (h : (framerOf s p).take x = (fr, some f)) :
    feed p x s = takeGoodFrame p f (setFramer p fr s) := by
  simp only [feed, h]

theorem exec_arrivingByte (h : (framerOf s p).holdsBadFrame = false) (b : Byte) (fault : Bool) :
    exec (.arrivingByte p b fault) s = .next (feed p { value := b, fault := fault } s) := by
  simp only [exec, execArrivingByte, takeArrivingByte, h, Bool.false_eq_true, if_false]

theorem exec_arrivingByte_quiet (h : (framerOf s p).holdsBadFrame = false) {b : Byte} {fault : Bool} {fr : Framer}
    (ht : (framerOf s p).take { value := b, fault := fault } = (fr, none)) : exec (.arrivingByte p b fault) s = .next (setFramer p fr s) := by
  rw [exec_arrivingByte h, feed_quiet ht]

end Feed

/-- Settles O47: by the framer's state, its buffer and the byte. -/
theorem framerByteAndGap : Obligations.FramerByteAndGap := by
  refine ⟨fun s p b fault => ?_, fun s p b len rest => ?_, fun s p h => ?_, fun s p h => ?_⟩
  · intro fr hunting collecting after
    refine ⟨fun h => ?_, fun hs hf => ?_, fun hs hf hb => ?_, fun hs hf hb => ?_, fun hs hno hf => ?_, fun hs he hf hl hb => ?_,
      fun hs he hf hb => ?_, fun hs he hf h3 h67 => ?_, fun len rest hs he hf hl => ?_⟩
    · show exec _ _ = _
      simp only [exec, execArrivingByte, takeArrivingByte]
      rw [if_pos h]
    · subst hf
      exact exec_arrivingByte_quiet (Framer.holdsBadFrame_hunt hs) (Framer.take_hunt_fault hs)
    · subst hf
      exact exec_arrivingByte_quiet (Framer.holdsBadFrame_hunt hs) ((Framer.take_hunt hs).trans (by rw [Framer.hunt]; exact congrArg (·, none) (if_neg hb)))
    · subst hf
      exact exec_arrivingByte_quiet (Framer.holdsBadFrame_hunt hs) ((Framer.take_hunt hs).trans (by rw [Framer.hunt]; exact congrArg (·, none) (if_pos hb)))
    · subst hf
      exact exec_arrivingByte_quiet hno (Framer.take_collect_fault hs)
    · subst hf
      have hl' : lenInRange b = false := by
        rw [← Bool.not_eq_true, lenInRange_iff]
        omega
      exact exec_arrivingByte_quiet (Framer.holdsBadFrame_empty he) ((Framer.take_collect_badLen hs he hl').trans (congrArg (·, none) (if_neg hb)))
    · subst hf
      have hl' : lenInRange b = false := by
        rw [hb]
        rfl
      exact exec_arrivingByte_quiet (Framer.holdsBadFrame_empty he) ((Framer.take_collect_badLen hs he hl').trans (congrArg (·, none) (if_pos hb)))
    · subst hf
      exact exec_arrivingByte_quiet (Framer.holdsBadFrame_empty he) (Framer.take_collect_len hs he (lenInRange_iff.mpr ⟨h3, h67⟩))
    · subst hf
      exact exec_arrivingByte_quiet (Framer.holdsBadFrame_part he (by omega)) (Framer.take_collect_part hs he hl)
  · intro fr hs he hl hbad
    refine exec_arrivingByte_quiet (Framer.holdsBadFrame_part he (by omega)) ((Framer.take_collect_last hs he hl).trans ?_)
    rw [hbad]
  · simp only [exec, execGapTimerExpiry, takeGapExpiry, h, if_true, Framer.abandon]
  · simp only [exec, execGapTimerExpiry, takeGapExpiry, h, Bool.false_eq_true, if_false]

/-! #### Many bytes -/

/-- The framer takes these bytes one after another, none of which completes a frame, and then stands so. -/
def Framer.Absorbs : Framer → List RxByte → Framer → Prop
  | f, [], f' => f' = f
  | f, x :: xs, f' => f.holdsBadFrame = false ∧ ∃ m, f.take x = (m, none) ∧ m.Absorbs xs f'

theorem Framer.Absorbs.append {f m f' : Framer} {xs ys : List RxByte} (h : f.Absorbs xs m) (h' : m.Absorbs ys f') : f.Absorbs (xs ++ ys) f' := by
  induction xs generalizing f with
  | nil =>
    cases h
    exact h'
  | cons x xs ih =>
    obtain ⟨hb, m', ht, h⟩ := h
    exact ⟨hb, m', ht, ih h⟩

/-- A framer that hunts with an empty buffer takes every byte but a SYNC without a trace. -/
theorem Framer.absorbs_noSync {xs : List RxByte} (h : ∀ x ∈ xs, x.fault = true ∨ x.value ≠ 0xA7) : Framer.atReset.Absorbs xs Framer.atReset := by
  induction xs with
  | nil => rfl
  | cons x xs ih =>
    refine ⟨rfl, Framer.atReset, ?_, ih fun y hy => h y (List.mem_cons_of_mem x hy)⟩
    obtain ⟨b, fault⟩ := x
    cases fault with
    | true => exact Framer.take_hunt_fault rfl
    | false =>
      have hb : b ≠ 0xA7 := (h _ List.mem_cons_self).resolve_left nofun
      exact (Framer.take_hunt rfl).trans (congrArg (·, none) (if_neg hb))

/-- A frame being collected, broken off behind these bytes. -/
def Framer.collecting (buffer : List Byte) : Framer := { state := .collect, buffer := buffer, gapRunning := true, backlog := [] }

/-- A byte that arrives without a framing fault. -/
def asSent (b : Byte) : RxByte := { value := b, fault := false }

theorem Framer.absorbs_more {len : Byte} {part more : List Byte} (h : part.length + more.length < len.toNat + 2) :
    (Framer.collecting (len :: part)).Absorbs (more.map asSent) (Framer.collecting (len :: (part ++ more))) := by
  induction more generalizing part with
  | nil =>
    rw [List.append_nil]
    rfl
  | cons b more ih =>
    rw [List.length_cons] at h
    refine ⟨Framer.holdsBadFrame_part rfl (by omega), Framer.collecting (len :: (part ++ [b])), Framer.take_collect_part rfl rfl (by omega), ?_⟩
    have := ih (part := part ++ [b]) (by rw [List.length_append, List.length_singleton]; omega)
    rwa [List.append_assoc, List.singleton_append] at this

/-- A SYNC, a LEN in range and fewer bytes than it announces are collected. -/
theorem Framer.absorbs_part {len : Byte} {part : List Byte} (h3 : 3 ≤ len.toNat) (h67 : len.toNat ≤ 67) (h : part.length < len.toNat + 2) :
    Framer.atReset.Absorbs ((0xA7 :: len :: part).map asSent) (Framer.collecting (len :: part)) := by
  refine ⟨rfl, Framer.collecting [], Framer.take_hunt rfl, Framer.holdsBadFrame_empty rfl, Framer.collecting [len],
    Framer.take_collect_len rfl rfl (lenInRange_iff.mpr ⟨h3, h67⟩), ?_⟩
  have := Framer.absorbs_more (len := len) (part := []) (more := part) (by rw [List.length_nil]; omega)
  rwa [List.nil_append] at this

theorem Framer.take_with_backlog (f : Framer) (x : RxByte) (bl : List RxByte) :
    ({ f with backlog := bl } : Framer).take x = ({ (f.take x).1 with backlog := bl }, (f.take x).2) := by
  obtain ⟨st, buffer, gap, backlog⟩ := f
  unfold Framer.take
  cases st with
  | hunt =>
    simp only [Framer.hunt]
    split
    · rfl
    · split <;> rfl
  | collect =>
    simp only [Framer.hunt, Framer.store]
    split
    · rfl
    · split
      · split <;> rfl
      · split
        · split <;> rfl
        · rfl

theorem setFramer_setFramer (p : Port) (f g : Framer) (s : State) : setFramer p f (setFramer p g s) = setFramer p f s := updLink_updLink p _ _ s

theorem setFramer_self {p : Port} {s : State} {f : Framer} (h : framerOf s p = f) : setFramer p f s = s := by
  subst h
  exact congrArg (fun x => { s with link := x }) (PerPort.set_get s.link p)

/-- Bytes taken again leave the framer as if they had arrived. -/
theorem drain_absorbs {f f' : Framer} {xs : List RxByte} (h : f.Absorbs xs f') (p : Port) (n : Nat) (rest : List RxByte) (s : State) :
    drain p (xs.length + n) (setFramer p { f with backlog := xs ++ rest } s) = drain p n (setFramer p { f' with backlog := rest } s) := by
  induction xs generalizing f with
  | nil =>
    cases h
    rw [List.length_nil, Nat.zero_add, List.nil_append]
  | cons x xs ih =>
    obtain ⟨hb, m, ht, h⟩ := h
    have hno : ({ f with backlog := x :: (xs ++ rest) } : Framer).holdsBadFrame = false := hb
    have hfeed : feed p x (setFramer p { f with backlog := xs ++ rest } s) = setFramer p { m with backlog := xs ++ rest } s := by
      have hq : (framerOf (setFramer p { f with backlog := xs ++ rest } s) p).take x = ({ m with backlog := xs ++ rest }, none) := by
        rw [framerOf_setFramer, Framer.take_with_backlog, ht]
      rw [feed_quiet hq, setFramer_setFramer]
    rw [List.length_cons, Nat.succ_add, List.cons_append, drain, framerOf_setFramer, hno, if_neg Bool.false_ne_true]
    simp only [setFramer_setFramer]
    rw [hfeed]
    exact ih h

theorem drain_last {f : Framer} {x : RxByte} (hb : f.holdsBadFrame = false) (p : Port) (s : State) :
    drain p 1 (setFramer p { f with backlog := [x] } s) = feed p x (setFramer p { f with backlog := [] } s) := by
  have hno : ({ f with backlog := [x] } : Framer).holdsBadFrame = false := hb
  rw [drain, framerOf_setFramer, hno, if_neg Bool.false_ne_true]
  simp only [setFramer_setFramer, drain]

theorem runAll_absorbs {f f' : Framer} {bs : List Byte} (h : f.Absorbs (bs.map asSent) f') (p : Port) (is : List Instr) {s : State}
    (hf : framerOf s p = f) : runAll (bs.map (fun b => Instr.arrivingByte p b false) ++ is) s = runAll is (setFramer p f' s) := by
  induction bs generalizing f s with
  | nil =>
    cases h
    rw [setFramer_self hf]
    rfl
  | cons b bs ih =>
    obtain ⟨hb, m, ht, h⟩ := h
    have hstep : exec (.arrivingByte p b false) s = .next (setFramer p m s) :=
      exec_arrivingByte_quiet (by rw [hf]; exact hb) (by rw [hf]; exact ht)
    rw [List.map_cons, List.cons_append, runAll, hstep]
    simp only
    rw [ih h (framerOf_setFramer p m s), setFramer_setFramer]

/-- The bytes of a frame that fits: SYNC, a LEN in range, all but one of the bytes it announces, and the last, which completes the frame. -/
theorem frameBytesOf_split {f : RxFrame} (h : f.fits = true) :
    ∃ (len last : Byte) (part : List Byte), frameBytesOf f = (0xA7 :: len :: part) ++ [last] ∧ 3 ≤ len.toNat ∧ len.toNat ≤ 67 ∧
      part.length + 1 = len.toNat + 2 ∧ goodFrame? (len :: part ++ [last]) = some f := by
  obtain ⟨typ, seq, a, payload⟩ := f
  have hfit : payload.length ≤ 64 := of_decide_eq_true h
  have hlen : payload.length + 3 = (byteOf (payload.length + 3)).toNat := (toNat_byteOf_of_lt (by omega)).symm
  have hbytes : frameBytesOf ⟨typ, seq, a, payload⟩ =
      (0xA7 :: byteOf (payload.length + 3) :: (typ :: seq :: a :: payload ++ [hiByte (crc (frameBody typ seq a payload))])) ++
        [loByte (crc (frameBody typ seq a payload))] := by
    simp [frameBytesOf, frameBytes, crcBytes, frameBody, Config.syncByte]
  refine ⟨_, _, _, hbytes, by omega, by omega, ?_, ?_⟩
  · simp only [List.length_append, List.length_cons, List.length_nil]
    omega
  · have hgood := (goodFrame?_cons typ seq a (hiByte (crc (frameBody typ seq a payload))) (loByte (crc (frameBody typ seq a payload))) hlen).trans
      (if_pos (wordOf_hiByte_loByte _))
    rw [← hgood]
    simp

/-- The last byte of a good frame delivers it. -/
theorem feed_last {len last : Byte} {part : List Byte} {f : RxFrame} (hl : part.length + 1 = len.toNat + 2)
    (hg : goodFrame? (len :: part ++ [last]) = some f) (p : Port) (s : State) :
    feed p (asSent last) (setFramer p (Framer.collecting (len :: part)) s) = takeGoodFrame p f (setFramer p Framer.atReset s) := by
  have ht : (framerOf (setFramer p (Framer.collecting (len :: part)) s) p).take (asSent last) = (Framer.atReset, some f) := by
    rw [framerOf_setFramer]
    refine (Framer.take_collect_last (f := Framer.collecting (len :: part)) rfl rfl hl).trans ?_
    rw [show (Framer.collecting (len :: part)).buffer = len :: part from rfl, hg]
    rfl
  rw [feed_delivers ht, setFramer_setFramer]

/-- Settles O49: all bytes but the last are collected; the last delivers the frame. -/
theorem frameBytesDeliverFrame : Obligations.FrameBytesDeliverFrame := by
  intro s p f i hfit hi hf
  obtain ⟨len, last, part, hbytes, h3, h67, hl, hg⟩ := frameBytesOf_split hfit
  have hbad : (framerOf (setFramer p (Framer.collecting (len :: part)) s) p).holdsBadFrame = false := by
    rw [framerOf_setFramer]
    exact Framer.holdsBadFrame_part rfl (by omega)
  rw [hbytes, List.map_append, runAll_absorbs (Framer.absorbs_part h3 h67 (by omega)) p _ hf, List.map_singleton, runAll,
    exec_arrivingByte hbad, exec_of_frame hi]
  have hfeed := feed_last hl hg p s
  rw [setFramer_self hf] at hfeed
  exact congrArg Host.Outcome.next hfeed

/-- Settles O48: the bytes are taken again, none, all or all but the last of them absorbed. -/
theorem badCrcFrame : Obligations.BadCrcFrame := by
  refine ⟨fun s p h => ?_, fun s p h => ?_⟩
  · simp only [exec, execBadCrcFrame, takeBadFrame, h, Bool.false_eq_true, if_false]
  · intro bytes sent
    have hex : exec (.badCrcFrame p) s = .next (drain p bytes.length (setFramer p { Framer.atReset with backlog := bytes } s)) := by
      simp only [exec, execBadCrcFrame, takeBadFrame, h, if_true]
      rfl
    have hsent : ∀ bs, sent bs = bs.map asSent := fun _ => rfl
    have hnoSync : ∀ pre : List Byte, (∀ b ∈ pre, b ≠ 0xA7) → Framer.atReset.Absorbs (pre.map asSent) Framer.atReset := by
      intro pre hpre
      refine Framer.absorbs_noSync fun x hx => ?_
      obtain ⟨b, hb, rfl⟩ := List.mem_map.mp hx
      exact Or.inr (hpre b hb)
    refine ⟨fun hno => ?_, fun pre f i hpre hfit hb hi => ?_, fun pre len part hpre h3 h67 hl hb => ?_⟩
    · have hd := drain_absorbs (Framer.absorbs_noSync hno) p 0 [] s
      rw [List.append_nil] at hd
      rw [hex]
      exact congrArg _ hd
    · obtain ⟨len, last, part, hbytes, h3, h67, hl, hg⟩ := frameBytesOf_split hfit
      have habs := (hnoSync pre hpre).append (Framer.absorbs_part (part := part) h3 h67 (by omega))
      have heq : bytes = pre.map asSent ++ (0xA7 :: len :: part).map asSent ++ [asSent last] := by
        rw [hb, hbytes, hsent, List.map_append, List.map_append, List.map_singleton, List.append_assoc]
      have hbad : (Framer.collecting (len :: part)).holdsBadFrame = false := Framer.holdsBadFrame_part (len := len) (rest := part) rfl (by omega)
      rw [hex, heq, List.length_append, List.length_singleton, drain_absorbs habs, drain_last hbad, exec_of_frame hi]
      exact congrArg _ (feed_last hl hg p s)
    · have habs := (hnoSync pre hpre).append (Framer.absorbs_part h3 h67 hl)
      have heq : bytes = pre.map asSent ++ (0xA7 :: len :: part).map asSent := by
        rw [hb, hsent, List.map_append]
      have hd := drain_absorbs habs p 0 [] s
      rw [List.append_nil, ← heq] at hd
      rw [hex]
      exact congrArg _ hd

end Sys2Proof.Machine

/-! ### The requests to the Dispatcher, the Lamp Controller, the Key Table, and STATUS (R38, R76, R77, R102 to R105, R152) -/

namespace Sys2Proof.Machine

/-! #### SNAPSHOT -/

theorem armStep_delivery {s : State} {p : Port} (h : isOpen s p = true) (g : Group) (q : Port) :
    (armStep p g s).delivery.get q =
      if q = p ∧ memberMode s g p = some .latched then (s.delivery.get q).takeArm g else s.delivery.get q := by
  unfold armStep
  by_cases hm : memberMode s g p = some .latched
  · rw [if_pos hm, post_open h]
    by_cases hq : q = p
    · subst hq
      rw [updDelivery_get_same, if_pos ⟨rfl, hm⟩]
    · rw [updDelivery_get_ne hq, if_neg fun e => hq e.1]
  · rw [if_neg hm, if_neg fun e => hm e.2]

theorem snapshotAllowed_iff {s : State} {p : Port} {g : Group} :
    snapshotAllowed s p g = true ↔ isAdmin s p ∨ (memberMode s g p).isSome = true := by
  simp only [snapshotAllowed, Bool.or_eq_true, beq_iff_eq, isAdmin]

theorem snapshotAllowed_congr {s t : State} (hm : t.mgr.sessions = s.mgr.sessions) (hg : t.groups = s.groups) (p : Port) (g : Group) :
    snapshotAllowed t p g = snapshotAllowed s p g := by
  simp only [snapshotAllowed, memberMode, sessionOf, hm, hg]

/-- Settles O29. -/
theorem snapshotRequest : Obligations.SnapshotRequest := by
  intro s p seq a payload g hr hno hd
  have hready : ownerReady s p (.snapshot g) = true := by
    rw [ownerReady, hno]
    rfl
  have hallowed : snapshotAllowed (beforeOwner p seq a s) p g = snapshotAllowed s p g := snapshotAllowed_congr (by simp) (by simp) p g
  have hopen : isOpen (beforeOwner p seq a s) p = true := by
    rw [isOpen_congr (s := s) (by simp)]
    exact hr.1.2.1
  refine ⟨_, owner_request (f := ⟨typeSnapshot, seq, a, payload⟩) hr rfl hd nofun hready, fun hadmin hm => ?_, fun hallow => ?_⟩
  · have hc : carryOut (requestOf s p ⟨typeSnapshot, seq, a, payload⟩) (.snapshot g) (beforeOwner p seq a s) =
        replyTo (requestOf s p ⟨typeSnapshot, seq, a, payload⟩) .notMember .none (beforeOwner p seq a s) := by
      refine if_neg ?_
      show ¬snapshotAllowed (beforeOwner p seq a s) p g = true
      rw [hallowed, snapshotAllowed_iff, hm]
      simp [hadmin]
    rw [hc]
    exact plain_reply hr.1 _ _
  · have hc : carryOut (requestOf s p ⟨typeSnapshot, seq, a, payload⟩) (.snapshot g) (beforeOwner p seq a s) =
        setSnapshot p (some { req := requestOf s p ⟨typeSnapshot, seq, a, payload⟩, group := g }) (armStep p g (beforeOwner p seq a s)) := by
      refine if_pos ?_
      show snapshotAllowed (beforeOwner p seq a s) p g = true
      rw [hallowed]
      exact snapshotAllowed_iff.mpr hallow
    have ho : Owned s
        (setSnapshot p (some { req := requestOf s p ⟨typeSnapshot, seq, a, payload⟩, group := g }) (armStep p g (beforeOwner p seq a s))) p seq a
        (if memberMode s g p = some .latched then Delivery.takeArm g else id) := by
      refine (owned_beforeOwner hr.1 a).change (by simp) (by simp) ?_
      rw [setSnapshot_delivery, armStep_delivery hopen, memberMode_beforeOwner]
      by_cases hm : memberMode s g p = some .latched
      · rw [if_pos ⟨rfl, hm⟩, if_pos hm]
      · rw [if_neg fun e => hm e.2, if_neg hm]
        rfl
    obtain ⟨hacc, hcomp, hserved⟩ := ho.waits
    rw [hc]
    refine ⟨hacc, ?_, by simp, by simp, by simp, by simp, by simp, by simp, by simp, otherPortsKept_of_servedIn hr.1.1 (fun q hq => ?_) hserved,
      ho.delivered hcomp⟩
    · rw [serveAll_disp, setSnapshot, (armStep_keeps p g _).2.2.2.1, beforeOwner_disp]
      rfl
    · rw [setSnapshot_delivery, armStep_delivery hopen, if_neg fun e => hq e.1]
      exact beforeOwner_delivery_ne hq seq a s

/-! #### MAP LAMPS and LAMPS -/

/-- Settles O31. -/
theorem mapLampsRequest : Obligations.MapLampsRequest := by
  intro s p seq a payload es hr hadmin hd
  have hex := owner_request (f := ⟨typeMapLamps, seq, a, payload⟩) (i := .mapLamps p seq a payload) hr rfl hd (fun _ => hadmin) rfl
  have hlamps : (serveAll (carryOut (requestOf s p ⟨typeMapLamps, seq, a, payload⟩) (.mapLamps es) (beforeOwner p seq a s))).lamps =
      (es.foldl mapLamp (beforeOwner p seq a s)).lamps := by
    simp [carryOut, takeMapLamps]
  obtain ⟨hans, hnothing⟩ :=
    panel_reply (f := ⟨typeMapLamps, seq, a, payload⟩) (s' := { s with lamps := (es.foldl mapLamp (beforeOwner p seq a s)).lamps })
      (c := es.foldl mapLamp (beforeOwner p seq a s)) hr.1 (by simp) (by simp) (by simp)
      (by simp [SamePanel]) ⟨rfl, rfl, rfl⟩ ⟨rfl, rfl⟩ .ok .none
  refine ⟨_, hex, hans, by rw [hlamps]; exact hnothing, fun l => ?_⟩
  have hl := foldl_mapLamp_lamps es (beforeOwner p seq a s) l
  rw [beforeOwner_lamps] at hl
  rw [hlamps]
  exact hl

/-- A port that may switch a lamp, in the statement's words. -/
theorem lampAccess_iff {s : State} {p : Port} {l : Lamp} :
    lampAccess s p l = true ↔
      (∃ g, s.lamps[l].group = some g ∧ (memberMode s g p).isSome = true) ∨ (s.lamps[l].group = none ∧ isAdmin s p) := by
  unfold lampAccess
  cases s.lamps[l].group with
  | none => simp [isAdmin]
  | some g => simp

theorem lampFollows_iff {s : State} {l : Lamp} : lampFollows s l = true ↔ ∃ k, s.lamps[l].mode = .follow k := by
  unfold lampFollows
  cases s.lamps[l].mode <;> simp

section LampFault

variable {s : State} {p : Port} {l : Lamp}

theorem lampFault_none (h : lampAccess s p l = true) (hf : ¬lampFollows s l = true) : lampFault s p l = none := by
  rw [Bool.not_eq_true] at hf
  simp only [lampFault, h, hf, Bool.not_true, Bool.false_eq_true, if_false]

theorem lampFault_locked (h : ¬lampAccess s p l = true) : lampFault s p l = some .lampLocked := by
  rw [Bool.not_eq_true] at h
  simp only [lampFault, h, Bool.not_false, if_true]

theorem lampFault_follow (h : lampAccess s p l = true) (hf : lampFollows s l = true) : lampFault s p l = some .followLamp := by
  simp only [lampFault, h, hf, Bool.not_true, Bool.false_eq_true, if_false, if_true]

end LampFault

/-- The check of a LAMPS entry reads the lamps, the memberships and the sessions alone. -/
theorem lampFault_congr {s t : State} (hl : t.lamps = s.lamps) (hg : t.groups = s.groups) (hm : t.mgr = s.mgr) (p : Port) :
    lampFault t p = lampFault s p := by
  rcases t with ⟨scan, keys, groups, disp, delivery, lamps, link, mgr, pins, races, pending⟩
  subst hl hg hm
  rfl

theorem lampFault_beforeOwner (p : Port) (seq a : Byte) (s : State) : lampFault (beforeOwner p seq a s) p = lampFault s p :=
  lampFault_congr (by simp) (by simp) (by simp) p

/-- The first entry that fails its check decides (R104). -/
theorem findSome?_lampFault {s : State} {p : Port} {es before after : List (Lamp × SwitchMode)} {e : Lamp × SwitchMode}
    (hes : es = before ++ e :: after) (hb : ∀ b ∈ before, lampFault s p b.1 = none) {st : Status} (he : lampFault s p e.1 = some st) :
    (es.findSome? fun e => lampFault s p e.1) = some st := by
  rw [hes, List.findSome?_append, List.findSome?_eq_none_iff.mpr hb, Option.none_or, List.findSome?_cons, he]

/-- A reply and a lit demand do not meet. -/
theorem replyTo_setScan (r : Request) (st : Status) (data : ReplyData) (sc : Scanner) (s : State) :
    { replyTo r st data s with scan := sc } = replyTo r st data { s with scan := sc } := by
  have hlive : isLive { s with scan := sc } r.port r.session = isLive s r.port r.session := rfl
  simp only [replyTo, produce, hlive]
  split <;> rfl

/-- What LAMPS leaves, once its entries have passed their checks. -/
def lampsSwitched (es : List (Lamp × SwitchMode)) (s : State) : State :=
  { es.foldl switchLamp s with
    scan := { s.scan with litDemands := if namesLit es (es.foldl switchLamp s) = true then s.scan.litDemands + 1 else s.scan.litDemands } }

theorem takeLamps_ok {r : Request} {es : List (Lamp × SwitchMode)} {s : State} (h : (es.findSome? fun e => lampFault s r.port e.1) = none) :
    takeLamps r es s = replyTo r .ok .none (lampsSwitched es s) := by
  have hscan : (es.foldl switchLamp s).scan = s.scan := (foldl_switchLamp_keeps es s).1
  simp only [takeLamps, h, lampsSwitched]
  split
  · rw [replyTo_setScan, replyTo_scan, hscan]
  · rw [← hscan]

theorem takeLamps_refused {r : Request} {es : List (Lamp × SwitchMode)} {s : State} {st : Status}
    (h : (es.findSome? fun e => lampFault s r.port e.1) = some st) : takeLamps r es s = replyTo r st .none s := by
  simp only [takeLamps, h]

/-- Settles O32: the first failing entry's status, or every entry applied. -/
theorem lampsRequest : Obligations.LampsRequest := by
  intro s p seq a payload es hr hd open_ follows
  have haccess : ∀ l, open_ l ↔ lampAccess s p l = true := fun l => lampAccess_iff.symm
  have hfollow : ∀ l, follows l ↔ lampFollows s l = true := fun l => lampFollows_iff.symm
  have hrefused : ∀ st : Status, (es.findSome? fun e => lampFault s p e.1) = some st →
      carryOut (requestOf s p ⟨typeLamps, seq, a, payload⟩) (.lamps es) (beforeOwner p seq a s) =
        replyTo (requestOf s p ⟨typeLamps, seq, a, payload⟩) st .none (beforeOwner p seq a s) := by
    intro st h
    rw [← lampFault_beforeOwner p seq a s] at h
    exact takeLamps_refused h
  refine ⟨_, owner_request (f := ⟨typeLamps, seq, a, payload⟩) hr rfl hd nofun rfl, fun before after e hes hb => ⟨fun hl => ?_, fun hl hf => ?_⟩,
    fun hall => ?_⟩
  · have hbefore : ∀ b ∈ before, lampFault s p b.1 = none := fun b h =>
      lampFault_none ((haccess _).mp (hb b h).1) fun e => (hb b h).2 ((hfollow _).mpr e)
    rw [hrefused _ (findSome?_lampFault hes hbefore (lampFault_locked fun e' => hl ((haccess _).mpr e')))]
    exact plain_reply hr.1 _ _
  · have hbefore : ∀ b ∈ before, lampFault s p b.1 = none := fun b h =>
      lampFault_none ((haccess _).mp (hb b h).1) fun e => (hb b h).2 ((hfollow _).mpr e)
    rw [hrefused _ (findSome?_lampFault hes hbefore (lampFault_follow ((haccess _).mp hl) ((hfollow _).mp hf)))]
    exact plain_reply hr.1 _ _
  · have hnone : (es.findSome? fun e => lampFault (beforeOwner p seq a s) p e.1) = none := by
      rw [lampFault_beforeOwner]
      exact List.findSome?_eq_none_iff.mpr fun e h =>
        lampFault_none ((haccess _).mp (hall e h).1) fun e' => (hall e h).2 ((hfollow _).mpr e')
    have hc : carryOut (requestOf s p ⟨typeLamps, seq, a, payload⟩) (.lamps es) (beforeOwner p seq a s) =
        replyTo (requestOf s p ⟨typeLamps, seq, a, payload⟩) .ok .none (lampsSwitched es (beforeOwner p seq a s)) := takeLamps_ok hnone
    rw [hc]
    have hlamps : (serveAll (replyTo (requestOf s p ⟨typeLamps, seq, a, payload⟩) .ok .none (lampsSwitched es (beforeOwner p seq a s)))).lamps =
        (es.foldl switchLamp (beforeOwner p seq a s)).lamps := by
      rw [serveAll_lamps, replyTo_lamps]
      rfl
    rw [hlamps]
    obtain ⟨hans, hnothing⟩ :=
      panel_reply (f := ⟨typeLamps, seq, a, payload⟩)
        (s' := { s with
          lamps := (es.foldl switchLamp (beforeOwner p seq a s)).lamps
          scan := { s.scan with
            litDemands := if namesLit es (es.foldl switchLamp (beforeOwner p seq a s)) = true then s.scan.litDemands + 1
              else s.scan.litDemands } })
        (c := lampsSwitched es (beforeOwner p seq a s)) hr.1 (by simp [lampsSwitched])
        (by simp [lampsSwitched]) (by simp [lampsSwitched]) (by simp [SamePanel, lampsSwitched]) ⟨rfl, rfl, rfl⟩ ⟨rfl, rfl⟩ .ok .none
    refine ⟨hans, fun l => ?_, ?_⟩
    · have hl := foldl_switchLamp_lamps es (beforeOwner p seq a s) l
      rw [beforeOwner_lamps] at hl
      exact hl
    · have hdemand : (if ∃ e ∈ es, (es.foldl switchLamp (beforeOwner p seq a s)).lamps[e.1].mode.lit = true then s.scan.litDemands + 1
            else s.scan.litDemands) =
          if namesLit es (es.foldl switchLamp (beforeOwner p seq a s)) = true then s.scan.litDemands + 1 else s.scan.litDemands :=
        if_congr namesLit_iff.symm rfl rfl
      rw [hdemand]
      exact hnothing

/-! #### MAP KEYS -/

theorem remapKey_congr {s t : State} (hk : t.keys = s.keys) (hd : t.disp = s.disp) (hs : t.scan = s.scan) (e : Key × Option Group) :
    (remapKey t e).keys = (remapKey s e).keys ∧ (remapKey t e).disp = (remapKey s e).disp ∧ (remapKey t e).scan = (remapKey s e).scan := by
  obtain ⟨k, g⟩ := e
  by_cases hg : s.keys.recs[k].group = g
  · have hg' : t.keys.recs[k].group = g := by
      rw [hk]
      exact hg
    rw [remapKey_same hg, remapKey_same hg']
    exact ⟨hk, hd, hs⟩
  · have hg' : t.keys.recs[k].group ≠ g := by
      rw [hk]
      exact hg
    have hheld : t.keys.recs[k].state.held = s.keys.recs[k].state.held := by rw [hk]
    cases hh : s.keys.recs[k].state.held with
    | false =>
      rw [remapKey_not_held hg hh, remapKey_not_held hg' (hheld.trans hh)]
      simp only [hk, hd, hs, and_self]
    | true =>
      rw [remapKey_held hg hh, remapKey_held hg' (hheld.trans hh)]
      simp only [hk, hd, hs, and_self]

/-- MAP KEYS entries read the Key Table, the Dispatcher's queue and the scanner alone. -/
theorem foldl_remapKey_congr (es : List (Key × Option Group)) {s t : State} (hk : t.keys = s.keys) (hd : t.disp = s.disp)
    (hs : t.scan = s.scan) : (es.foldl remapKey t).keys = (es.foldl remapKey s).keys ∧ (es.foldl remapKey t).disp = (es.foldl remapKey s).disp := by
  induction es generalizing s t with
  | nil => exact ⟨hk, hd⟩
  | cons e es ih =>
    obtain ⟨hk', hd', hs'⟩ := remapKey_congr hk hd hs e
    exact ih hk' hd' hs'

/-- Settles O33. -/
theorem mapKeysRequest : Obligations.MapKeysRequest := by
  intro s p seq a payload es hr hadmin hw hd u
  have hready : ownerReady s p (.mapKeys es) = true := by
    rw [ownerReady, hw]
    rfl
  obtain ⟨hkeys, hdisp⟩ := foldl_remapKey_congr es (s := s) (t := beforeOwner p seq a s) (by simp) (by simp) (by simp)
  have hc : carryOut (requestOf s p ⟨typeMapKeys, seq, a, payload⟩) (.mapKeys es) (beforeOwner p seq a s) =
      replyTo (requestOf s p ⟨typeMapKeys, seq, a, payload⟩) .ok (.transition u.keys.transition) (es.foldl remapKey (beforeOwner p seq a s)) := by
    simp only [carryOut, takeMapKeys, hkeys, u]
  have ho : Owned s (es.foldl remapKey (beforeOwner p seq a s)) p seq a id := (owned_beforeOwner hr.1 a).same (by simp) (by simp) (by simp)
  obtain ⟨hans, hcomp, hserved⟩ := ho.answered (f := ⟨typeMapKeys, seq, a, payload⟩) (Or.inl rfl) .ok (.transition u.keys.transition)
  refine ⟨_, owner_request (f := ⟨typeMapKeys, seq, a, payload⟩) hr rfl hd (fun _ => hadmin) hready, ?_⟩
  rw [hc]
  refine ⟨hans, ?_, otherPortsKept_of_servedIn hr.1.1 (fun q hq => ?_) hserved, by simp, ho.delivered hcomp⟩
  · simp [SamePanel, hkeys, hdisp, u]
  · simp [hq]

/-! #### STATUS -/

theorem choice_resend_length {n f : Word16} {l : Link} {d : Delivery} {x : Link × Delivery} (h : choice n f l d = some x) :
    x.1.resend.length = l.resend.length ∨ x.1.resend.length = l.resend.length + 1 := by
  have hnew : ∀ (b : Body) (l' : Link), l'.resend = l.resend → (l'.sendNew b).resend.length = l.resend.length + 1 := by
    intro b l' e
    show (l'.resend ++ [_]).length = _
    rw [e, List.length_append, List.length_singleton]
  rcases choice_cases h with ⟨_, _, _, _, rfl⟩ | ⟨_, _, rfl⟩ | ⟨_, rfl⟩ | ⟨_, _, ⟨_, _, _, _, rfl⟩ | ⟨_, rfl⟩ | ⟨_, rfl⟩⟩ | ⟨_, rfl⟩
  · exact Or.inl rfl
  · exact Or.inl rfl
  · exact Or.inl rfl
  · exact Or.inr (hnew _ _ rfl)
  · exact Or.inr (hnew _ _ rfl)
  · exact Or.inr (hnew _ _ rfl)
  · exact Or.inl rfl

/-- A meeting adds one frame to the resend list at most. -/
theorem raceChoice_resend_length (p : Port) (s : State) :
    ((raceChoice p s).link.get p).resend.length = (s.link.get p).resend.length ∨
      ((raceChoice p s).link.get p).resend.length = (s.link.get p).resend.length + 1 := by
  unfold raceChoice
  split
  · cases hc : chooseFrame p s with
    | none => exact Or.inl rfl
    | some s' =>
      obtain ⟨x, hx, rfl⟩ := Option.map_eq_some_iff.mp hc
      simp only
      split
      · simp only [setPort_link_same]
        exact choice_resend_length hx
      · exact Or.inl rfl
  · exact Or.inl rfl

/-- Settles O38. -/
theorem statusRequest : Obligations.StatusRequest := by
  intro s p seq a role hr hrole
  have hresend : ((s.link.get p).readAck a).resend = (((s.link.get p).readAck a).accept seq).resend :=
    (Link.accept_keeps seq _).2.2.2.2.2.2.1.symm
  have hc : carryOut (requestOf s p ⟨typeStatus, seq, a, []⟩) .status (beforeOwner p seq a s) =
      replyTo (requestOf s p ⟨typeStatus, seq, a, []⟩) .ok
        (.status s.scan.state s.scan.frameNumber s.keys.transition ((beforeOwner p seq a s).delivery.get p).credits
          ((beforeOwner p seq a s).delivery.get p).queue.length ((beforeOwner p seq a s).delivery.get p).loss
          ((beforeOwner p seq a s).link.get p).resend.length role s.mgr.adminClaim) (beforeOwner p seq a s) := by
    have hport : (requestOf s p ⟨typeStatus, seq, a, []⟩).port = p := rfl
    have hrole' : ((sessionOf (beforeOwner p seq a s) p).role).getD .user = role := by
      rw [sessionOf_congr (s := s) (by simp), hrole]
      rfl
    simp only [carryOut, takeStatus, statusData, hport, hrole', beforeOwner_scan, beforeOwner_keys, beforeOwner_mgr]
  refine ⟨_, (beforeOwner p seq a s).delivery.get p, ((beforeOwner p seq a s).link.get p).resend.length,
    owner_request (f := ⟨typeStatus, seq, a, []⟩) hr rfl (decodeRequest_payload (ask := .status) rfl) nofun rfl,
    (beforeOwner_own p seq a s).2.2.2.2.2, ?_, fun hb => ?_, ?_⟩
  · have := raceChoice_resend_length p (updLink p (fun l => (l.readAck a).accept seq) s)
    rw [updLink_get_same, ← hresend] at this
    exact this
  · rw [beforeOwner_busy hb, updLink_get_same, hresend]
    exact ⟨rfl, rfl⟩
  · rw [hc]
    exact plain_reply (f := ⟨typeStatus, seq, a, []⟩) hr.1 _ _

end Sys2Proof.Machine

/-! ### CLOSE and RESET (R129, R146, R148, R153) -/

namespace Sys2Proof.Machine

/-- Nothing follows an owner's part of an accepted request but every transmitter's service: the port's own Link Unit, its replies and what it accepted. -/
theorem serveAll_link {P : Link → Prop} {p : Port} {s : State} (h : P (s.link.get p))
    (hc : ∀ l', lineIdle p s = true → Link.Chosen (s.link.get p) l' → P l') : P ((serveAll s).link.get p) := by
  rcases serveAll_spec p s with ⟨e, _⟩ | ⟨hi, hl, _⟩
  · rw [e]
    exact h
  · exact hc _ hi hl

/-- Settles O37. -/
theorem closeRequest : Obligations.CloseRequest := by
  intro s p seq a hr r
  have hex := owner_request (f := ⟨typeClose, seq, a, []⟩) (i := .close p seq a []) hr rfl (decodeRequest_payload (ask := .close) rfl) nofun rfl
  have ho := owned_beforeOwner hr.1 a
  have hreply : replyTo (requestOf s p ⟨typeClose, seq, a, []⟩) .ok .none (beforeOwner p seq a s) =
      updLink p (Link.withReply r) (beforeOwner p seq a s) :=
    produce_live ho.live (ho.link.held ▸ Nat.succ_pos _)
  have hc : carryOut (requestOf s p ⟨typeClose, seq, a, []⟩) .close (beforeOwner p seq a s) =
      updLink p Link.releaseHeld (teardown p .closing (updLink p (Link.withReply r) (beforeOwner p seq a s))) := by
    rw [← hreply]
    rfl
  rw [hc] at hex
  have hlink : (updLink p Link.releaseHeld (teardown p .closing (updLink p (Link.withReply r) (beforeOwner p seq a s)))).link.get p =
      (((beforeOwner p seq a s).link.get p).withReply r).releaseHeld := by
    rw [updLink_get_same, teardown_link, updLink_get_same]
  have ha := ho.link.reply r
  have hempty : (updLink p Link.releaseHeld (teardown p .closing (updLink p (Link.withReply r) (beforeOwner p seq a s)))).delivery.get p =
      Delivery.empty := teardown_delivery_same p .closing _
  have hown : ∀ l' : Link, lineIdle p s = true ∧ Link.Chosen (((beforeOwner p seq a s).link.get p).withReply r).releaseHeld l' ∨
        l' = (((beforeOwner p seq a s).link.get p).withReply r).releaseHeld →
      (r ∈ l'.replies ∨ ∃ f ∈ l'.resend, f.body = .reply r) ∧ l'.lastAccepted = seq ∧ l'.held = 0 ∧
        (lineIdle p s = false → l' = { (s.link.get p).afterAnswer seq a r with held := 0 }) := by
    rintro l' (⟨hi, h⟩ | rfl)
    · exact ⟨h.replies r ha.reply, h.lastAccepted.trans ha.lastAccepted, h.held, fun e => absurd (hi.symm.trans e) (by decide)⟩
    · exact ⟨ha.reply, ha.lastAccepted, rfl, fun e => congrArg Link.releaseHeld (ha.busy e)⟩
  refine ⟨_, hex, (sessionEnded_teardown p .closing (updLink p (Link.withReply r) (beforeOwner p seq a s))).congr (by simp) (by simp),
    (portRemoved_teardown p .closing (updLink p (Link.withReply r) (beforeOwner p seq a s))).congr ⟨by simp, by simp⟩ (by simp) (by simp), serveAll_delivery_empty hempty,
    fun q hq => portKept_of_serveAll hr.1.1 ?_ ?_, by simp, by simp, by simp, by simp, by simp, ?_⟩
  · rw [updLink_get_ne hq, teardown_link, updLink_get_ne hq, beforeOwner_link_ne hq]
  · rw [updLink_delivery, teardown_delivery_ne hq, updLink_delivery, beforeOwner_delivery_ne hq]
  · refine hown _ ?_
    refine serveAll_link (P := fun l' => lineIdle p s = true ∧ Link.Chosen (((beforeOwner p seq a s).link.get p).withReply r).releaseHeld l' ∨
      l' = (((beforeOwner p seq a s).link.get p).withReply r).releaseHeld) (Or.inr hlink) fun l' hi hl => Or.inl ⟨?_, ?_⟩
    · rw [lineIdle, hlink] at hi
      by_contra hb
      exact absurd (hi.symm.trans (ho.link.not_idle (Bool.not_eq_true _ ▸ hb))) (by decide)
    · rwa [hlink] at hl

/-- A reply and a change of the Session Manager that leaves the sessions do not meet. -/
theorem replyTo_setMgr (r : Request) (st : Status) (data : ReplyData) {m : Manager} {s : State} (hm : m.sessions = s.mgr.sessions) :
    { replyTo r st data s with mgr := m } = replyTo r st data { s with mgr := m } := by
  have hlive : isLive { s with mgr := m } r.port r.session = isLive s r.port r.session := isLive_congr hm _ _
  simp only [replyTo, produce, hlive]
  split <;> rfl

/-- What a RESET leaves, before its reply. -/
def resetTaken (p : Port) (n : Nat) (s : State) : State :=
  { s with mgr := { s.mgr with resetInFlight := some (p, n), inbox := passOthers p s.mgr.inbox } }

theorem takeReset_eq (r : Request) (s : State) : takeReset r s = replyTo r .ok .none (resetTaken r.port r.session s) := by
  simp only [takeReset, replyTo_mgr]
  exact replyTo_setMgr r .ok .none rfl

theorem resetRequest_taken (s : State) (p : Port) (seq a : Byte) (hr : Ready s p seq) (hadmin : isAdmin s p) :
    ∃ t : State, exec (.reset p seq a []) s = .next t ∧
      Answered s t p seq a (replyOn s p typeReset seq .ok .none) ∧
      (∀ q : Port, t.mgr.inbox.get q = if q = p then [] else (s.mgr.inbox.get q).map fun w => { w with passed := true }) ∧
      NothingElse
        { s with mgr := { s.mgr with resetInFlight := some (p, (sessionOf s p).identity.getD 0), inbox := t.mgr.inbox } } t p := by
  obtain ⟨⟨hs, _, _, _, _, hhand⟩, hno⟩ := id hr
  have hex := owner_request (f := ⟨typeReset, seq, a, []⟩) (i := .reset p seq a []) hr rfl (decodeRequest_payload (ask := .reset) rfl)
    (fun _ => hadmin) rfl
  have hc : carryOut (requestOf s p ⟨typeReset, seq, a, []⟩) .reset (beforeOwner p seq a s) =
      replyTo (requestOf s p ⟨typeReset, seq, a, []⟩) .ok .none (resetTaken p ((sessionOf s p).identity.getD 0) (beforeOwner p seq a s)) :=
    takeReset_eq _ _
  rw [hc] at hex
  have ho : Owned s (resetTaken p ((sessionOf s p).identity.getD 0) (beforeOwner p seq a s)) p seq a id :=
    (owned_beforeOwner hr.1 a).same rfl rfl rfl
  obtain ⟨hans, hcomp, hserved⟩ := ho.answered (f := ⟨typeReset, seq, a, []⟩) (Or.inl rfl) .ok .none
  have hmgr : (serveAll (replyTo (requestOf s p ⟨typeReset, seq, a, []⟩) .ok .none
      (resetTaken p ((sessionOf s p).identity.getD 0) (beforeOwner p seq a s)))).mgr =
      { s.mgr with resetInFlight := some (p, (sessionOf s p).identity.getD 0), inbox := passOthers p s.mgr.inbox } := by
    simp [resetTaken]
  refine ⟨_, hex, hans, fun q => ?_, ?_⟩
  · rw [hmgr]
    by_cases hq : q = p
    · subst hq
      rw [if_pos rfl]
      exact (passOthers_get_same q _).trans (inbox_nil hs.1 hhand)
    · rw [if_neg hq]
      exact passOthers_get_ne hq _
  · refine nothingElse_of (c := resetTaken p ((sessionOf s p).identity.getD 0) (beforeOwner p seq a s)) hs rfl rfl rfl rfl
      (by simp [SamePanel, resetTaken]) (by rw [hmgr]) (fun q hq => beforeOwner_delivery_ne hq seq a s) (ho.delivered hcomp) hserved

/-! ### OPEN (R117, R141 to R145) -/

theorem Link.acceptOpen_eq (seq : Byte) (l : Link) :
    l.acceptOpen seq =
      { l with
        replies := [], held := 1, resend := [], retransmit := l.retransmit.stop, retry := 0, burst := none, nextSeq := 0
        noSession := false, openRefused := none, lastAccepted := seq, openMark := true, replyRun := 0, ackOwed := true
        holdoff := if l.ackOwed = true then l.holdoff else l.holdoff.start Config.ackHoldoffMs } := by
  obtain ⟨framer, lastAccepted, openMark, replies, held, resend, nextSeq, rto, retransmit, retry, burst, ackOwed, holdoff, noSession, openRefused,
    replyRun, line⟩ := l
  cases ackOwed <;> rfl

/-- What the acceptance of an OPEN leaves before its payload is looked at: the earlier session ended, and everything of it (R117, R143). -/
structure EndedForOpen (s e : State) (p : Port) (seq a : Byte) : Prop where
  session : SessionEnded s e p .closed
  inbox : ∀ q, s.mgr.inbox.get q = [] → e.mgr.inbox.get q = []
  removed : PortRemoved s e p
  delivery : e.delivery.get p = Delivery.empty
  link : e.link.get p = ((s.link.get p).readAck a).acceptOpen seq
  others : ∀ q, q ≠ p → e.link.get q = s.link.get q ∧ e.delivery.get q = s.delivery.get q
  scan : e.scan = s.scan
  keys : e.keys = s.keys
  disp : e.disp = s.disp
  pins : e.pins = s.pins
  pending : e.pending = s.pending

/-- A port in no group is removed from none. -/
theorem portRemoved_of_none {s : State} {p : Port} (h : ∀ g, memberMode s g p = none) : PortRemoved s s p := by
  refine ⟨fun g => ?_, fun l => ?_⟩
  · have hm : s.groups[g].members.get p = none := h g
    have := PerPort.set_get s.groups[g].members p
    rw [hm] at this
    rw [this]
  · cases s.lamps[l].group with
    | none => rfl
    | some g => simp [h g]

theorem endedForOpen {s : State} (hsess : SessionsSound s) (hmem : MembersSound s) (p : Port) (seq a : Byte) :
    EndedForOpen s (endForOpen p (updLink p (Link.acceptOpen seq) (takeAckByte p a s))) p seq a := by
  cases hopen : isOpen s p with
  | true =>
    have hak := takeAckByte_open hopen a
    have he : endForOpen p (updLink p (Link.acceptOpen seq) (takeAckByte p a s)) =
        teardown p .closed (updLink p (Link.acceptOpen seq) (updLink p (Link.readAck a) s)) := by
      rw [hak]
      exact if_pos hopen
    rw [he]
    have hended := sessionEnded_teardown p .closed (updLink p (Link.acceptOpen seq) (updLink p (Link.readAck a) s))
    have hremoved := portRemoved_teardown p .closed (updLink p (Link.acceptOpen seq) (updLink p (Link.readAck a) s))
    refine { session := hended.congr (updLink_mgr ..) rfl, inbox := fun q hq => ?_,
             removed := hremoved.congr ⟨updLink_groups .., updLink_lamps ..⟩ rfl rfl, delivery := teardown_delivery_same p .closed _
             link := ?_, others := fun q hq => ⟨?_, ?_⟩, scan := by simp, keys := by simp, disp := by simp, pins := by simp, pending := by simp }
    · rw [teardown_inbox, PerPort.get_set]
      split
      · rfl
      · exact hq
    · rw [teardown_link, updLink_get_same, updLink_get_same]
    · rw [teardown_link, updLink_get_ne hq, updLink_get_ne hq]
    · rw [teardown_delivery_ne hq]
      rfl
  | false =>
    obtain ⟨k1, k2, k3, k4, k5, k6, k7, k8, k9, k10, k11⟩ := takeAckByte_keeps p a s
    have hmode : ∀ g, memberMode s g p = none := by
      intro g
      cases hm : memberMode s g p with
      | none => rfl
      | some m =>
        have := (hmem.1 p g (by rw [hm]; rfl)).1
        rw [hopen] at this
        cases this
    obtain ⟨hrole, htag, _, hclaim, _⟩ := hsess.1 p
    rw [hopen] at hrole htag hclaim
    have hrole' : (sessionOf s p).role = none := Option.not_isSome_iff_eq_none.mp (by rw [hrole]; decide)
    have htag' : (sessionOf s p).tag = none := Option.not_isSome_iff_eq_none.mp (by rw [htag]; decide)
    have hsession : sessionOf (takeAckByte p a s) p = { sessionOf s p with state := (sessionOf (takeAckByte p a s) p).state } ∧
        (∀ q, q ≠ p → sessionOf (takeAckByte p a s) q = sessionOf s q) ∧ isOpen (takeAckByte p a s) p = false ∧
        (takeAckByte p a s).mgr.adminClaim = s.mgr.adminClaim ∧ (takeAckByte p a s).mgr.resetInFlight = s.mgr.resetInFlight := by
      unfold takeAckByte
      simp only
      split
      · refine ⟨?_, fun q hq => ?_, ?_, rfl, rfl⟩
        · rw [endClosing, sessionOf_setSession_same]
          rfl
        · rw [endClosing, sessionOf_setSession_ne hq]
          rfl
        · rw [endClosing, isOpen, sessionOf_setSession_same]
          rfl
      · exact ⟨rfl, fun _ _ => rfl, hopen, rfl, rfl⟩
    obtain ⟨hp, hne, hno, hac, hri⟩ := hsession
    have he : endForOpen p (updLink p (Link.acceptOpen seq) (takeAckByte p a s)) =
        setSession p { sessionOf (takeAckByte p a s) p with state := .closed } (updLink p (Link.acceptOpen seq) (takeAckByte p a s)) :=
      if_neg (by rw [show isOpen (updLink p (Link.acceptOpen seq) (takeAckByte p a s)) p = false from hno]; decide)
    rw [he]
    refine { session := ⟨?_, fun q hq => ?_, ?_, hri, k10⟩, inbox := fun q hq => by rw [setSession_inbox, updLink_mgr, k11]; exact hq,
             removed := (portRemoved_of_none hmode).congr ⟨rfl, rfl⟩ k3 k6, delivery := ?_, link := ?_, others := fun q hq => ⟨?_, ?_⟩
             scan := k1, keys := k2, disp := k4, pins := k8, pending := k9 }
    · rw [sessionOf_setSession_same, hp]
      simp only [hrole', htag']
    · rw [sessionOf_setSession_ne hq]
      exact hne q hq
    · rw [if_neg fun e => absurd ((hclaim.mp e).1) (by decide)]
      exact hac
    · rw [setSession_delivery, updLink_delivery, k5]
      exact hmem.2.2.2.1 p hopen
    · rw [setSession_link, updLink_get_same, k7, updLink_get_same]
    · rw [setSession_link, updLink_get_ne hq, k7, updLink_get_ne hq]
    · rw [setSession_delivery, updLink_delivery, k5]

theorem duplicateOpen_takeAckByte (p : Port) (a : Byte) (payload : List Byte) (s : State) :
    duplicateOpen (takeAckByte p a s) p payload = duplicateOpen s p payload := by
  have hmark : ((takeAckByte p a s).link.get p).openMark = (s.link.get p).openMark := by
    obtain ⟨_, _, _, _, _, _, k7, _⟩ := takeAckByte_keeps p a s
    rw [k7, updLink_get_same, (Link.readAck_keeps a _).2.1]
  cases hc : ackEndsClosing p a s with
  | false =>
    have hs := sessionOf_congr (congrArg Manager.sessions ((takeAckByte_mgr p a s).1 hc)) p
    simp only [duplicateOpen, isOpen, hs, hmark]
  | true =>
    have hclosing : (sessionOf s p).state = .closing := by
      simp only [ackEndsClosing, Bool.and_eq_true, beq_iff_eq] at hc
      exact hc.1
    have hno : isOpen s p = false := by
      rw [isOpen, hclosing]
      rfl
    have hno' : isOpen (takeAckByte p a s) p = false := by
      rw [isOpen, takeAckByte_closed (Or.inr hc)]
      rfl
    simp only [duplicateOpen, hno, hno', Bool.false_and]

theorem resetOn_eq_false {s : State} {p : Port} (h : ∀ n : Nat, s.mgr.resetInFlight ≠ some (p, n)) : resetOn s p = false := by
  unfold resetOn
  cases hr : s.mgr.resetInFlight with
  | none => rfl
  | some x => exact beq_eq_false_iff_ne.mpr fun e => h x.2 (hr.trans (by rw [← e]))

section TakeOpen

variable {s : State} {p : Port} {seq : Byte} {payload : List Byte}

theorem takeOpen_resetting (h : (isOpen s p && resetOn s p) = false) (he : resetElsewhere (endForOpen p s) p = true) :
    takeOpen p seq payload s = refuseOpen p .resetting (endForOpen p s) := by
  simp only [takeOpen, h, he, Bool.false_eq_true, if_false, if_true]

theorem takeOpen_undecoded (h : (isOpen s p && resetOn s p) = false) (he : resetElsewhere (endForOpen p s) p = false) {st : Status}
    (hd : decodeOpen payload = .refused st) : takeOpen p seq payload s = refuseOpen p st (endForOpen p s) := by
  simp only [takeOpen, h, he, hd, Bool.false_eq_true, if_false]

theorem takeOpen_adminHeld (h : (isOpen s p && resetOn s p) = false) (he : resetElsewhere (endForOpen p s) p = false) {o : OpenAsk}
    (hd : decodeOpen payload = .ok o) (hc : (o.role == .admin && claimElsewhere (endForOpen p s) p) = true) :
    takeOpen p seq payload s = refuseOpen p .adminHeld (endForOpen p s) := by
  simp only [takeOpen, h, he, hd, hc, Bool.false_eq_true, if_false, if_true]

theorem takeOpen_begins (h : (isOpen s p && resetOn s p) = false) (he : resetElsewhere (endForOpen p s) p = false) {o : OpenAsk}
    (hd : decodeOpen payload = .ok o) (hc : (o.role == .admin && claimElsewhere (endForOpen p s) p) = false) :
    takeOpen p seq payload s = beginSession p seq o (endForOpen p s) := by
  simp only [takeOpen, h, he, hd, hc, Bool.false_eq_true, if_false]

end TakeOpen

/-- An OPEN that is no duplicate is taken by the Session Manager, with no reset in flight on its own port. -/
theorem exec_openSession {s : State} {p : Port} {seq a : Byte} {payload : List Byte} (hno : ∀ n : Nat, s.mgr.resetInFlight ≠ some (p, n))
    (hdup : duplicateOpen s p payload = false) :
    exec (.openSession p seq a payload) s =
        .next (finish (takeOpen p seq payload (updLink p (Link.acceptOpen seq) (takeAckByte p a s)))) ∧
      (isOpen (updLink p (Link.acceptOpen seq) (takeAckByte p a s)) p && resetOn (updLink p (Link.acceptOpen seq) (takeAckByte p a s)) p) =
        false := by
  have hon := resetOn_eq_false hno
  have hack : ackEndsReset p a s = false := by
    simp only [ackEndsReset, hon, Bool.false_and]
  have hri : (takeAckByte p a s).mgr.resetInFlight = s.mgr.resetInFlight := by
    unfold takeAckByte
    simp only
    split <;> rfl
  constructor
  · rw [exec_of_frame rfl, takeGoodFrame_open (f := ⟨typeOpen, seq, a, payload⟩) hack rfl, takeOpenFrame,
      if_neg (by rw [duplicateOpen_takeAckByte]; exact Bool.eq_false_iff.mp hdup)]
  · refine Bool.and_eq_false_iff.mpr (Or.inr ?_)
    rw [resetOn, updLink_mgr, hri]
    exact hon

end Sys2Proof.Machine

/-! ### OPEN: the session that begins, and the OPEN that is not taken -/

namespace Sys2Proof.Machine

/-- Nothing follows the end of the earlier session, whatever the OPEN then makes of the port's session and Link Unit. -/
theorem EndedForOpen.quiet {s e u : State} {p : Port} {seq a : Byte} (he : EndedForOpen s e p seq a) (h : internal s = none)
    (hs : u.scan = e.scan) (hd : u.disp = e.disp) (hh : u.mgr.handed = e.mgr.handed) (hi : u.mgr.inbox = e.mgr.inbox) : internal u = none := by
  obtain ⟨_, _, _, _, hhanded⟩ := he.session
  refine internal_none_of h ?_ (fun q x hx => ?_) (hh.trans hhanded) fun q hq => ?_
  · rw [scannerEvent_eq_none, hd, hs, he.disp, he.scan]
    exact scannerEvent_eq_none.mp (internal_eq_none.mp h).1
  · rwa [ownerReady_congr (s := s) (hd.trans he.disp) (by rw [hs, he.scan])] at hx
  · rw [hi]
    exact he.inbox q hq

theorem EndedForOpen.nextIdentity {s e : State} {p : Port} {seq a : Byte} (he : EndedForOpen s e p seq a) :
    nextIdentity (sessionOf e p) = nextIdentity (sessionOf s p) := by
  rw [he.session.1]
  rfl

/-- The reply to an OPEN that is taken. -/
def openReply (n : Nat) (seq : Byte) : Reply := { session := n, typ := typeOpen, seq := seq, status := .ok, data := .identity }

/-- The Session Manager's part of step 5 of R143. -/
def sessionBegun (p : Port) (o : OpenAsk) (n : Nat) (s : State) : State :=
  let s1 := setSession p { state := .open, role := some o.role, tag := some o.tag, identity := some n } s
  { s1 with mgr := { s1.mgr with adminClaim := if o.role = .admin then some p else s1.mgr.adminClaim } }

/-- The session begun and its reply produced: all of step 5 of R143. -/
def openTaken (p : Port) (seq : Byte) (o : OpenAsk) (n : Nat) (s : State) : State :=
  updLink p (fun l => { l with rto := o.rto * 10, held := l.held - 1, replies := l.replies ++ [openReply n seq] }) (sessionBegun p o n s)

theorem beginSession_eq {p : Port} {seq : Byte} {o : OpenAsk} {s : State} (h : 0 < (s.link.get p).held) :
    beginSession p seq o s = openTaken p seq o (nextIdentity (sessionOf s p)) s := by
  have hsession : sessionOf (updLink p (fun l => { l with rto := o.rto * 10 }) (sessionBegun p o (nextIdentity (sessionOf s p)) s)) p =
      { state := .open, role := some o.role, tag := some o.tag, identity := some (nextIdentity (sessionOf s p)) } :=
    PerPort.get_set_same _ _ _
  have hlive : isLive (updLink p (fun l => { l with rto := o.rto * 10 }) (sessionBegun p o (nextIdentity (sessionOf s p)) s)) p
      (openReply (nextIdentity (sessionOf s p)) seq).session = true := by
    rw [isLive, isOpen, hsession]
    exact Bool.and_eq_true_iff.mpr ⟨rfl, beq_self_eq_true _⟩
  refine (produce_live hlive ?_).trans ?_
  · rw [updLink_get_same]
    exact h
  · exact updLink_updLink ..

/-- The Link Unit of a port whose session has just begun, before its transmitter is served. -/
def openedLink (seq : Byte) (o : OpenAsk) (r : Reply) (l : Link) : Link :=
  { l with
    replies := [r], held := 0, resend := [], retransmit := l.retransmit.stop, retry := 0, burst := none, nextSeq := 0
    noSession := false, openRefused := none, lastAccepted := seq, openMark := true, replyRun := 0, ackOwed := true, rto := o.rto * 10
    holdoff := if l.ackOwed = true then l.holdoff else l.holdoff.start Config.ackHoldoffMs }

/-- On an IDLE line the reply to the OPEN is the first sequenced frame. -/
theorem choice_openedLink (n m : Word16) (seq : Byte) (o : OpenAsk) (r : Reply) (l : Link) :
    choice n m (openedLink seq o r l) Delivery.empty =
      some (Link.sendNew (.reply r) { openedLink seq o r l with replies := [], replyRun := 0 }, Delivery.empty) :=
  choice_of_rank4 (rank1_none rfl) (rank2_none rfl) (rank3_none rfl)
    (rank4_reply (l := openedLink seq o r l) (d := Delivery.empty) rfl (by decide : (0 : Nat) < 8) rfl rfl)

/-- What the transmitter makes of the reply to an OPEN: it waits behind the frame on the line, or goes out at once. -/
theorem EndedForOpen.opened_link {s e : State} {p : Port} {seq a : Byte} (he : EndedForOpen s e p seq a) (o : OpenAsk) (n : Nat) :
    (lineIdle p s = false ∧
        (serveAll (openTaken p seq o n e)).link.get p = openedLink seq o (openReply n seq) ((s.link.get p).readAck a)) ∨
      (lineIdle p s = true ∧
        (serveAll (openTaken p seq o n e)).link.get p =
          Link.sendNew (.reply (openReply n seq))
            { openedLink seq o (openReply n seq) ((s.link.get p).readAck a) with replies := [], replyRun := 0 }) := by
  have hlink : (openTaken p seq o n e).link.get p = openedLink seq o (openReply n seq) ((s.link.get p).readAck a) := by
    rw [openTaken, updLink_get_same]
    simp only [sessionBegun, setSession_link, he.link, Link.acceptOpen_eq]
    rfl
  have hserved := servedIn_serveAll p (openTaken p seq o n e)
  rw [hlink, show (openTaken p seq o n e).delivery.get p = Delivery.empty from he.delivery] at hserved
  have hsame : (openedLink seq o (openReply n seq) ((s.link.get p).readAck a)).line.isIdle = lineIdle p s :=
    congrArg Line.isIdle (Link.readAck_keeps a (s.link.get p)).2.2.2.2.2.2.1
  cases hi : lineIdle p s with
  | false => exact Or.inl ⟨rfl, (hserved.busy (hsame.trans hi)).1⟩
  | true => exact Or.inr ⟨rfl, (hserved.chosen (hsame.trans hi) (choice_openedLink _ _ seq o _ _)).1⟩

/-- An OPEN that decodes and, for ADMIN, meets no other holder of the claim, is taken. -/
theorem exec_open_taken {s : State} {p : Port} {seq a : Byte} {payload : List Byte} {o : OpenAsk} (hs : Settled s) (hsess : SessionsSound s)
    (hmem : MembersSound s) (hreset : s.mgr.resetInFlight = none) (hdup : duplicateOpen s p payload = false)
    (hdecode : decodeOpen payload = .ok o) (hclaim : o.role = .admin → ∀ q : Port, q ≠ p → s.mgr.adminClaim ≠ some q) :
    ∃ e, EndedForOpen s e p seq a ∧
      exec (.openSession p seq a payload) s = .next (serveAll (openTaken p seq o (nextIdentity (sessionOf s p)) e)) := by
  have he := endedForOpen hsess hmem p seq a
  obtain ⟨hexec, hon⟩ := exec_openSession (s := s) (p := p) (seq := seq) (a := a) (payload := payload) (fun n => by rw [hreset]; nofun) hdup
  refine ⟨_, he, ?_⟩
  obtain ⟨_, _, hadminClaim, hresetInFlight, _⟩ := he.session
  have helsewhere : resetElsewhere (endForOpen p (updLink p (Link.acceptOpen seq) (takeAckByte p a s))) p = false := by
    rw [resetElsewhere, hresetInFlight, hreset]
    rfl
  have hnoClaim : (o.role == .admin && claimElsewhere (endForOpen p (updLink p (Link.acceptOpen seq) (takeAckByte p a s))) p) = false := by
    by_cases hadmin : o.role = .admin
    · have hnone : claimElsewhere (endForOpen p (updLink p (Link.acceptOpen seq) (takeAckByte p a s))) p = false := by
        rw [claimElsewhere, hadminClaim]
        split
        · rfl
        · cases hc : s.mgr.adminClaim with
          | none => rfl
          | some q =>
            by_cases hq : q = p
            · subst hq
              exact bne_self_eq_false q
            · exact absurd hc (hclaim hadmin q hq)
      rw [hnone, Bool.and_false]
    · rw [beq_eq_false_iff_ne.mpr hadmin, Bool.false_and]
  have hheld : 0 < ((endForOpen p (updLink p (Link.acceptOpen seq) (takeAckByte p a s))).link.get p).held := by
    rw [he.link, Link.acceptOpen_eq]
    exact Nat.one_pos
  rw [hexec, takeOpen_begins hon helsewhere hdecode hnoClaim, beginSession_eq hheld, he.nextIdentity]
  exact congrArg _ (finish_quiet (he.quiet hs.1 rfl rfl rfl rfl))

/-- Settles O35: the earlier session ends, the new one begins, and its reply goes out first. -/
theorem openBegins : Obligations.OpenBegins := by
  intro s p seq a payload o hs hsess hmem hreset hdup hdecode hclaim r
  obtain ⟨e, he, hex⟩ := exec_open_taken (seq := seq) (a := a) hs hsess hmem hreset hdup hdecode hclaim
  obtain ⟨_, hothers, hadminClaim, hresetInFlight, hhanded⟩ := he.session
  obtain ⟨_, _, hframer, _, _, _, hline, _⟩ := Link.readAck_keeps a (s.link.get p)
  have hlink := he.opened_link o (nextIdentity (sessionOf s p))
  have hmgr : (serveAll (openTaken p seq o (nextIdentity (sessionOf s p)) e)).mgr =
      (sessionBegun p o (nextIdentity (sessionOf s p)) e).mgr := serveAll_mgr _
  have hsessions : ∀ q, sessionOf (serveAll (openTaken p seq o (nextIdentity (sessionOf s p)) e)) q =
      sessionOf (sessionBegun p o (nextIdentity (sessionOf s p)) e) q := sessionOf_congr (congrArg Manager.sessions hmgr)
  refine ⟨_, hex, (hsessions p).trans (PerPort.get_set_same _ _ _), fun n hn => ?_,
    fun q hq => (hsessions q).trans ((PerPort.get_set_ne _ hq _).trans (hothers q hq)), ?_, ?_, ?_, he.removed.congr ⟨rfl, rfl⟩
    (serveAll_groups _) (serveAll_lamps _), serveAll_delivery_empty he.delivery, fun q hq => ?_, (serveAll_scan _).trans he.scan,
    (serveAll_keys _).trans he.keys, (serveAll_disp _).trans he.disp, (serveAll_pins _).trans he.pins, (serveAll_pending _).trans he.pending, ?_⟩
  · rw [nextIdentity, hn]
    exact Nat.lt_succ_self n
  · rw [hmgr]
    simp only [sessionBegun, setSession_adminClaim, hadminClaim]
  · rw [hmgr]
    exact hresetInFlight.trans hreset
  · rw [hmgr]
    exact hhanded
  · obtain ⟨hl, hd⟩ := he.others q hq
    refine portKept_of_serveAll hs ?_ hd
    rw [openTaken, updLink_get_ne hq]
    exact hl
  · rcases hlink with ⟨hi, e⟩ | ⟨hi, e⟩
    · rw [e]
      exact ⟨hframer, rfl, rfl, rfl, rfl, rfl, rfl, rfl, rfl, rfl, fun _ => ⟨hline, rfl, rfl, rfl, rfl, rfl⟩,
        fun hi' => absurd (hi'.symm.trans hi) (by decide)⟩
    · rw [e, Link.sendNew_eq]
      exact ⟨hframer, rfl, rfl, rfl, rfl, rfl, rfl, rfl, rfl, rfl, fun hi' => absurd (hi.symm.trans hi') (by decide),
        fun _ => ⟨rfl, rfl, rfl, rfl, rfl, rfl⟩⟩

end Sys2Proof.Machine

/-! ### The OPEN that is not taken (R117, R143, R144, R154) -/

namespace Sys2Proof.Machine

/-- The Link Unit of a port whose OPEN has just been refused, before its transmitter is served. -/
def refusedLink (seq : Byte) (st : Status) (l : Link) : Link :=
  { l with
    replies := [], held := 0, resend := [], retransmit := l.retransmit.stop, retry := 0, burst := none, nextSeq := 0
    noSession := false, openRefused := some st, lastAccepted := seq, openMark := true, replyRun := 0, ackOwed := true
    holdoff := if l.ackOwed = true then l.holdoff else l.holdoff.start Config.ackHoldoffMs }

/-- What the transmitter makes of a refusal: it waits behind the frame on the line, or goes out at once (R134). -/
theorem EndedForOpen.refused_link {s e : State} {p : Port} {seq a : Byte} (he : EndedForOpen s e p seq a) (st : Status) :
    (lineIdle p s = false ∧ (serveAll (refuseOpen p st e)).link.get p = refusedLink seq st ((s.link.get p).readAck a)) ∨
      (lineIdle p s = true ∧
        (serveAll (refuseOpen p st e)).link.get p =
          Link.send 0 (.openRefused st) { refusedLink seq st ((s.link.get p).readAck a) with openRefused := none }) := by
  have hlink : (refuseOpen p st e).link.get p = refusedLink seq st ((s.link.get p).readAck a) := by
    rw [refuseOpen, updLink_get_same]
    simp only [he.link, Link.acceptOpen_eq]
    rfl
  have hserved := servedIn_serveAll p (refuseOpen p st e)
  rw [hlink] at hserved
  have hsame : (refusedLink seq st ((s.link.get p).readAck a)).line.isIdle = lineIdle p s :=
    congrArg Line.isIdle (Link.readAck_keeps a (s.link.get p)).2.2.2.2.2.2.1
  cases hi : lineIdle p s with
  | false => exact Or.inl ⟨rfl, (hserved.busy (hsame.trans hi)).1⟩
  | true => exact Or.inr ⟨rfl, (hserved.chosen (hsame.trans hi) (choice_of_rank2 (rank1_none rfl) (rank2_some rfl))).1⟩

/-- The status with which an OPEN is refused, and that it is: a reset in flight, its decode, the admin claim, in this order. -/
def OpenRefusedWith (s : State) (p : Port) (payload : List Byte) (st : Status) : Prop :=
  st = (if s.mgr.resetInFlight.isSome = true then Status.resetting
      else match decodeOpen payload with
        | .refused x => x
        | .ok _ => .adminHeld) ∧
    (s.mgr.resetInFlight.isSome = true ∨
      (∀ o : OpenAsk, decodeOpen payload = .ok o → o.role = .admin ∧ ∃ q : Port, q ≠ p ∧ s.mgr.adminClaim = some q))

theorem exec_open_refused {s : State} {p : Port} {seq a : Byte} {payload : List Byte} {st : Status} (hs : Settled s) (hsess : SessionsSound s)
    (hmem : MembersSound s) (hdup : duplicateOpen s p payload = false) (hno : ∀ n : Nat, s.mgr.resetInFlight ≠ some (p, n))
    (hst : OpenRefusedWith s p payload st) :
    ∃ e, EndedForOpen s e p seq a ∧ exec (.openSession p seq a payload) s = .next (serveAll (refuseOpen p st e)) := by
  have he := endedForOpen hsess hmem p seq a
  obtain ⟨hexec, hon⟩ := exec_openSession (s := s) (p := p) (seq := seq) (a := a) (payload := payload) hno hdup
  refine ⟨_, he, ?_⟩
  obtain ⟨_, _, hadminClaim, hresetInFlight, _⟩ := he.session
  obtain ⟨hst, hwhy⟩ := hst
  suffices hu : takeOpen p seq payload (updLink p (Link.acceptOpen seq) (takeAckByte p a s)) =
      refuseOpen p st (endForOpen p (updLink p (Link.acceptOpen seq) (takeAckByte p a s))) by
    rw [hexec, hu]
    exact congrArg _ (finish_quiet (he.quiet hs.1 rfl rfl rfl rfl))
  cases hreset : s.mgr.resetInFlight with
  | some x =>
    have helsewhere : resetElsewhere (endForOpen p (updLink p (Link.acceptOpen seq) (takeAckByte p a s))) p = true := by
      rw [resetElsewhere, hresetInFlight, hreset]
      exact bne_iff_ne.mpr fun e => hno x.2 (hreset.trans (by rw [← e]))
    rw [hreset, Option.isSome_some, if_pos rfl] at hst
    rw [takeOpen_resetting hon helsewhere, hst]
  | none =>
    have helsewhere : resetElsewhere (endForOpen p (updLink p (Link.acceptOpen seq) (takeAckByte p a s))) p = false := by
      rw [resetElsewhere, hresetInFlight, hreset]
      rfl
    rw [hreset, Option.isSome_none, if_neg Bool.false_ne_true] at hst
    rw [hreset] at hwhy
    cases hdecode : decodeOpen payload with
    | refused x =>
      rw [hdecode] at hst
      rw [takeOpen_undecoded hon helsewhere hdecode, hst]
    | ok o =>
      rw [hdecode] at hst
      obtain ⟨hadmin, q, hq, hclaim⟩ := hwhy.resolve_left nofun o hdecode
      have hheld : (o.role == .admin && claimElsewhere (endForOpen p (updLink p (Link.acceptOpen seq) (takeAckByte p a s))) p) = true := by
        rw [hadmin, claimElsewhere, hadminClaim, if_neg (by rw [hclaim]; exact fun e => hq (Option.some.inj e)), hclaim]
        exact bne_iff_ne.mpr hq
      rw [takeOpen_adminHeld hon helsewhere hdecode hheld, hst]

/-- Settles O36: a refused OPEN ends the earlier session, a duplicate is acknowledged, one over the reset's session ends in the full reset. -/
theorem openNotTaken : Obligations.OpenNotTaken := by
  refine ⟨fun s p seq a payload st hs hsess hmem hdup hno hst hwhy => ?_, fun s p seq a payload hs hack hdup => ?_,
    fun s p seq a payload n hopen hreset hdup => ?_⟩
  · obtain ⟨e, he, hex⟩ := exec_open_refused (seq := seq) (a := a) hs hsess hmem hdup hno ⟨hst, hwhy⟩
    obtain ⟨hown, hothers, hadminClaim, hresetInFlight, _⟩ := he.session
    obtain ⟨_, _, _, _, _, _, hline, _⟩ := Link.readAck_keeps a (s.link.get p)
    have hsessions : ∀ q, sessionOf (serveAll (refuseOpen p st e)) q = sessionOf e q :=
      sessionOf_congr (congrArg Manager.sessions (serveAll_mgr (refuseOpen p st e)))
    have hmgr : (serveAll (refuseOpen p st e)).mgr = e.mgr := serveAll_mgr _
    refine ⟨_, hex, by rw [hsessions, hown], by rw [hsessions, hown], by rw [hsessions, hown], fun q hq => (hsessions q).trans (hothers q hq),
      by rw [hmgr, hadminClaim], by rw [hmgr, hresetInFlight], he.removed.congr ⟨rfl, rfl⟩ (serveAll_groups _) (serveAll_lamps _),
      serveAll_delivery_empty he.delivery, fun q hq => ?_, (serveAll_scan _).trans he.scan, (serveAll_keys _).trans he.keys,
      (serveAll_disp _).trans he.disp, (serveAll_pins _).trans he.pins, (serveAll_pending _).trans he.pending, ?_⟩
    · obtain ⟨hl, hd⟩ := he.others q hq
      refine portKept_of_serveAll hs ?_ hd
      rw [refuseOpen, updLink_get_ne hq]
      exact hl
    · rcases he.refused_link st with ⟨hi, e⟩ | ⟨hi, e⟩ <;> rw [e]
      · exact ⟨rfl, rfl, rfl, rfl, rfl, rfl, fun _ => ⟨hline, rfl⟩, fun hi' => absurd (hi'.symm.trans hi) (by decide)⟩
      · exact ⟨rfl, rfl, rfl, rfl, rfl, rfl, fun hi' => absurd (hi.symm.trans hi') (by decide), fun _ => ⟨rfl, rfl⟩⟩
  · have hopen : isOpen s p = true := by
      simp only [duplicateOpen, Bool.and_eq_true] at hdup
      exact hdup.1.1
    have hu : takeOpenFrame p ⟨typeOpen, seq, a, payload⟩ (takeAckByte p a s) = updLink p (fun l => (l.readAck a).oweAck) s := by
      rw [takeOpenFrame, if_pos (by rw [duplicateOpen_takeAckByte]; exact hdup), takeAckByte_open hopen, updLink_updLink]
    have hquiet : internal (updLink p (fun l => (l.readAck a).oweAck) s) = none := internal_none_congr (s := s) rfl rfl rfl rfl rfl hs.1
    have hex : exec (.openSession p seq a payload) s = .next (serveAll (updLink p (fun l => (l.readAck a).oweAck) s)) := by
      rw [exec_of_frame rfl, takeGoodFrame_open (f := ⟨typeOpen, seq, a, payload⟩) hack rfl, hu, finish_quiet hquiet]
    have hserved := servedIn_serveAll p (updLink p (fun l => (l.readAck a).oweAck) s)
    rw [updLink_get_same] at hserved
    exact ⟨_, hex, by simp [SamePanel], fun q hq => portKept_of_serveAll hs (updLink_get_ne hq _ s) rfl, by simp, hserved⟩
  · rw [exec_of_frame rfl]
    refine congrArg _ ?_
    cases hack : ackEndsReset p a s with
    | true =>
      rw [takeGoodFrame_reset (f := ⟨typeOpen, seq, a, payload⟩) hack]
      rfl
    | false =>
      have hu : takeOpenFrame p ⟨typeOpen, seq, a, payload⟩ (takeAckByte p a s) =
          fullReset (updLink p (Link.acceptOpen seq) (updLink p (Link.readAck a) s)) := by
        rw [takeOpenFrame, if_neg (by rw [duplicateOpen_takeAckByte]; exact Bool.eq_false_iff.mp hdup), takeAckByte_open hopen]
        refine if_pos (Bool.and_eq_true_iff.mpr ⟨hopen, ?_⟩)
        rw [resetOn, updLink_mgr, updLink_mgr, hreset]
        exact beq_self_eq_true p
      rw [takeGoodFrame_open (f := ⟨typeOpen, seq, a, payload⟩) hack rfl, hu, finish_settled (settled_fullReset _)]
      rfl

end Sys2Proof.Machine

/-! ### What follows inside a step, event by event -/

namespace Sys2Proof.Machine

/-- What follows without a command from s, one event after another with every transmitter served after each, until nothing more does, ends in t. -/
inductive Follows : State → State → Prop where
  | done {s : State} : internal s = none → Follows s s
  | step {s s' t : State} : internal s = some s' → Follows (serveAll s') t → Follows s t

theorem Follows.settle {s t : State} (h : Follows s t) {n : Nat} (hn : internalMeasure s ≤ n) : Machine.settle n s = t := by
  induction h generalizing n with
  | done hi => exact settle_none hi n
  | @step s s' t hi _ ih =>
    have hlt := internalMeasure_internal hi
    have hserved := internalMeasure_serveAll s'
    cases n with
    | zero => omega
    | succ n =>
      simp only [Machine.settle, hi]
      exact ih (by omega)

theorem Follows.finish {s t : State} (h : Follows (serveAll s) t) : Machine.finish s = t := h.settle le_rfl

/-! #### Requests that cannot be taken yet -/

/-- No request can be taken, whatever the scanner and the transitions waiting. -/
def NoRequestReady (s : State) : Prop := ∀ t : State, t.mgr = s.mgr → t.disp.snapshots = s.disp.snapshots → requestEvent t = none

theorem NoRequestReady.congr {s t : State} (h : NoRequestReady s) (hm : t.mgr = s.mgr) (hd : t.disp.snapshots = s.disp.snapshots) :
    NoRequestReady t := fun u hu hu' => h u (hu.trans hm) (hu'.trans hd)

theorem NoRequestReady.internal_eq {s : State} (h : NoRequestReady s) : internal s = scannerEvent s := internal_scanner (h s rfl rfl)

theorem requestEvent_none_of {s t : State} (h : requestEvent s = none)
    (hready : ∀ q x, s.mgr.handed.get q = some x → ownerReady t q x.ask = true → ownerReady s q x.ask = true) (hm : t.mgr = s.mgr) :
    requestEvent t = none := by
  rw [requestEvent_eq_none, ownerEvent_eq_none, managerEvent_eq_none] at h ⊢
  obtain ⟨ho, hman⟩ := h
  refine ⟨fun q => ?_, fun q => ?_⟩
  · have hq := ho q
    rw [readyRequest, Option.filter_eq_none_iff] at hq ⊢
    rw [hm]
    exact fun x hx e => hq x hx (hready q x hx e)
  · have hq := hman q
    simp only [nextRequest, hm] at hq ⊢
    exact hq

/-- With no transition waiting and no completion holding the scanner's requests back, every owner but the Dispatcher is ready. -/
theorem ownerReady_of_idle {s : State} (hw : s.disp.waiting = []) (hc : s.scan.completing = false) {t : State}
    (hsnap : t.disp.snapshots = s.disp.snapshots) (q : Port) (a : Ask) (h : ownerReady t q a = true) : ownerReady s q a = true := by
  cases a with
  | close | grant _ | join _ _ | leave _ | lamps _ | status | mapLamps _ | groupSetup _ _ _ | dissolve _ | reset => rfl
  | snapshot g => rwa [ownerReady, hsnap] at h
  | mapKeys es => rw [ownerReady, hw]; rfl
  | scanSetup su => rw [ownerReady, hc]; rfl
  | scanControl op => rw [ownerReady, hc]; rfl

theorem requestEvent_none_of_internal {s : State} (h : internal s = none) : requestEvent s = none :=
  requestEvent_eq_none.mpr (internal_eq_none.mp h).2

/-- Between two commands, with no transition waiting and no image, no handed request can become ready. -/
theorem noRequestReady_of_idle {s : State} (h : internal s = none) (hw : s.disp.waiting = []) (hc : s.scan.completing = false) :
    NoRequestReady s := fun _ hm hd =>
  requestEvent_none_of (requestEvent_none_of_internal h) (fun q x _ hx => ownerReady_of_idle hw hc hd q x.ask hx) hm

/-- Between two commands, with nothing but SNAPSHOTs waiting, no handed request can become ready before a read. -/
theorem noRequestReady_of_snapshots {s : State} (h : internal s = none) (ho : OnlySnapshotsWait s fun _ => True) : NoRequestReady s := by
  intro t hm hd
  refine requestEvent_none_of (requestEvent_none_of_internal h) (fun q x hx hr => ?_) hm
  obtain ⟨g, hg⟩ := ho q x trivial hx
  rw [hg, ownerReady] at hr ⊢
  rwa [hd] at hr

/-! #### Transmitters with nothing to choose -/

theorem Served.serveAll_eq {s t : State} (h : Served s) (hl : t.link = s.link) (hd : t.delivery = s.delivery) : serveAll t = t := by
  refine serveAll_nothing fun p hi => ?_
  rw [lineIdle, hl] at hi
  exact chooseFrame_none_congr (by rw [hl]) (by rw [hd]) (h p hi)

/-! #### A meeting, and the service that follows it -/

theorem raceChoice_held (p q : Port) (s : State) : ((raceChoice p s).link.get q).held = (s.link.get q).held := by
  by_cases hq : q = p
  · subst hq
    rcases raceChoice_spec q s with e | e | ⟨l, d, e, _, hl, _⟩
    · rw [e]
    · rw [e]
    · have hsame : (raceChoice q s).link.get q = l := by
        rw [e]
        exact setPort_link_same q l d s
      rw [hsame, hl.held]
  · rw [raceChoice_link_ne hq]

theorem serveAll_held (p : Port) (s : State) : ((serveAll s).link.get p).held = (s.link.get p).held := by
  rcases serveAll_spec p s with ⟨e, _⟩ | ⟨_, hl, _⟩
  · rw [e]
  · exact hl.held

/-- A choice made at a meeting is the one that would have been made after it. -/
theorem raced_servedIn {c u : State} {p : Port} (hl : u.link.get p = (raceChoice p c).link.get p)
    (hd : u.delivery.get p = (raceChoice p c).delivery.get p) (hn : u.keys.transition = c.keys.transition)
    (hf : u.scan.frameNumber = c.scan.frameNumber) :
    ServedIn (serveAll u) (c.link.get p) ((serveAll u).link.get p) (c.delivery.get p) ((serveAll u).delivery.get p) := by
  have hs := servedIn_serveAll p u
  unfold raceChoice at hl hd
  split at hl
  · rename_i hi
    rw [if_pos hi] at hd
    cases hc : chooseFrame p c with
    | none =>
      rw [hc] at hl hd
      rw [hl, hd] at hs
      exact hs
    | some s' =>
      rw [hc] at hl hd
      by_cases hr : Config.race c.races = true
      · simp only [hr, if_true] at hl hd
        obtain ⟨x, hx, rfl⟩ := Option.map_eq_some_iff.mp hc
        have hl' : u.link.get p = x.1 := hl.trans (setPort_link_same p x.1 x.2 c)
        have hd' : u.delivery.get p = x.2 := hd.trans (setPort_delivery_same p x.1 x.2 c)
        rw [hl', hd'] at hs
        obtain ⟨e1, e2⟩ := hs.busy (choice_spec hx).1.line
        have hidle : (c.link.get p).line.isIdle = true := hi
        unfold ServedIn
        rw [if_pos hidle, serveAll_keys, serveAll_scan, hn, hf, hx, e1, e2]
        rfl
      · simp only [hr] at hl hd
        have hl' : u.link.get p = c.link.get p := hl
        have hd' : u.delivery.get p = c.delivery.get p := hd
        rw [hl', hd'] at hs
        exact hs
  · rename_i hi
    rw [if_neg hi] at hd
    rw [hl, hd] at hs
    exact hs

/-- A reply produced after a meeting, and the service that follows it: the reply stands at the port, and at most one composition has been made. -/
theorem raced_replied {c v : State} {p : Port} {r : Reply} (hl : v.link.get p = ((raceChoice p c).link.get p).withReply r)
    (hd : v.delivery.get p = (raceChoice p c).delivery.get p) (hn : v.keys.transition = c.keys.transition)
    (hf : v.scan.frameNumber = c.scan.frameNumber) :
    Replied (serveAll v) p r ∧ ((serveAll v).link.get p).held = (c.link.get p).held - 1 ∧
      ComposedFrom (serveAll v) (c.delivery.get p) ((serveAll v).delivery.get p) ∧
      (lineIdle p c = false → (serveAll v).link.get p = (c.link.get p).withReply r ∧ (serveAll v).delivery.get p = c.delivery.get p) := by
  have hmem : ∀ l : Link, r ∈ (l.withReply r).replies := fun l => List.mem_append_right _ (List.mem_singleton.mpr rfl)
  have hchosen : ∀ {d' : Delivery}, Delivery.Chosen c.keys.transition c.scan.frameNumber (c.delivery.get p) d' →
      ComposedFrom (serveAll v) (c.delivery.get p) d' := by
    intro d' h
    simpa only [ComposedFrom, Delivery.Chosen, serveAll_keys, serveAll_scan, hn, hf] using h
  have hsame : v.link.get p = (c.link.get p).withReply r → v.delivery.get p = c.delivery.get p →
      Replied (serveAll v) p r ∧ ((serveAll v).link.get p).held = (c.link.get p).held - 1 ∧
        ComposedFrom (serveAll v) (c.delivery.get p) ((serveAll v).delivery.get p) ∧
        (lineIdle p c = false → (serveAll v).link.get p = (c.link.get p).withReply r ∧ (serveAll v).delivery.get p = c.delivery.get p) := by
    intro hl hd
    rcases serveAll_spec p v with ⟨e1, e2⟩ | ⟨hi, h1, h2⟩
    · rw [e1, e2, hl, hd]
      exact ⟨Or.inl (by rw [e1, hl]; exact hmem _), rfl, Or.inl rfl, fun _ => ⟨rfl, rfl⟩⟩
    · rw [lineIdle, hl] at hi
      rw [hl] at h1
      rw [hd, hn, hf] at h2
      exact ⟨h1.replies r (Or.inl (hmem _)), h1.held, hchosen h2, fun hb => absurd (hi.symm.trans hb) (by decide)⟩
  rcases raceChoice_spec p c with e | e | ⟨l, d, e, hi, hl', hd'⟩
  · rw [e] at hl hd
    exact hsame hl hd
  · rw [e] at hl hd
    exact hsame hl hd
  · rw [e] at hl hd
    have hl2 : v.link.get p = l.withReply r := hl.trans (congrArg (Link.withReply r) (setPort_link_same p l d c))
    have hd2 : v.delivery.get p = d := hd.trans (setPort_delivery_same p l d c)
    have hb : lineIdle p v = false := by
      rw [lineIdle, hl2]
      exact hl'.line
    rcases serveAll_spec p v with ⟨e1, e2⟩ | ⟨hi', _⟩
    · rw [e1, e2, hl2, hd2]
      refine ⟨Or.inl (by rw [e1, hl2]; exact hmem _), ?_, hchosen hd', fun hb' => absurd (hi.symm.trans hb') (by decide)⟩
      rw [Link.withReply, hl'.held]
    · exact absurd (hi'.symm.trans hb) (by decide)

/-! ### A change of scan state posted to the ADMIN port (R18) -/

theorem postScanState_delivery_eq (s : State) (q : Port) :
    (postScanState s).delivery.get q = if adminPort s = some q then (s.delivery.get q).takeScanState s.scan.state else s.delivery.get q := by
  cases ha : adminPort s with
  | none =>
    simp only [postScanState, ha]
    rfl
  | some p =>
    rw [postScanState_delivery (adminPort_eq_some ha).1 ha]
    by_cases hq : q = p
    · rw [if_pos hq, if_pos (by rw [hq])]
    · rw [if_neg hq, if_neg fun e => hq (Option.some.inj e).symm]

/-- At one port: the ADMIN port has taken the post, any other port's units stand. -/
theorem scanStatePosted_port {s t : State} {q : Port} {st : ScanState} {l : Link} {d : Delivery} (h : Served s) (hl : l = s.link.get q)
    (hd : d = if adminPort s = some q then (s.delivery.get q).takeScanState st else s.delivery.get q)
    (hs : ServedIn t l (t.link.get q) d (t.delivery.get q)) :
    if adminPort s = some q then PostedTo s t q (Delivery.takeScanState st) else PortKept s t q := by
  subst hl hd
  split
  · rename_i ha
    rwa [if_pos ha] at hs
  · rename_i ha
    rw [if_neg ha] at hs
    exact h.portKept hs

/-- A change of scan state is posted, then every transmitter is served. -/
theorem scanStatePosted_serveAll {s w : State} (h : Served s) (hl : w.link = s.link) (hd : w.delivery = s.delivery)
    (hm : w.mgr.sessions = s.mgr.sessions) {st : ScanState} (hst : w.scan.state = st) : ScanStatePosted s (serveAll (postScanState w)) st := by
  intro q
  refine scanStatePosted_port h (l := (postScanState w).link.get q) (d := (postScanState w).delivery.get q) ?_ ?_ (servedIn_serveAll q _)
  · rw [postScanState_link, hl]
  · rw [postScanState_delivery_eq, adminPort_congr hm, hd, hst]

/-! ### The stages of a scan frame's completion -/

section Stages

variable {s : State} (hw : s.disp.waiting = [])
include hw

theorem scannerEvent_image (hp : s.scan.phase = .imageWaiting) : scannerEvent s = some (afterImage (takeImage s)) := by
  simp only [scannerEvent, hw, hp, List.isEmpty_nil, if_true]

theorem scannerEvent_haltWaiting (hp : s.scan.phase = .haltWaiting) :
    scannerEvent s = some { takeHalt s with scan := { s.scan with phase := .haltRouting } } := by
  simp only [scannerEvent, hw, hp, List.isEmpty_nil, if_true]
  rfl

theorem scannerEvent_haltRouting (hp : s.scan.phase = .haltRouting) : scannerEvent s = some (endHalt s) := by
  simp only [scannerEvent, hw, hp, List.isEmpty_nil, if_true]

end Stages

theorem scannerEvent_waiting {s : State} (h : s.disp.waiting ≠ []) : scannerEvent s = none := scannerEvent_eq_none.mpr (Or.inl h)

/-- The idle count once the image has been taken (R5). -/
theorem updateIdle_takeImage (s : State) :
    updateIdle (takeImage s) = { takeImage s with scan := { s.scan with idleCount := idleCountAfter s (takeImage s) } } := by
  have hscan : (takeImage s).scan = s.scan := (takeImage_keeps s).1
  simp only [updateIdle, hscan, idleCountAfter]
  rfl

/-- The conditions for WATCH after an image (R6). -/
theorem watchDue_takeImage (s : State) :
    watchDue (updateIdle (takeImage s)) = true ↔
      s.scan.setup.idleLimit ≠ 0 ∧ s.scan.setup.idleLimit * 16 ≤ idleCountAfter s (takeImage s) ∧ allUp (takeImage s) = true ∧ anyLamp s = false := by
  have hlamps : (takeImage s).lamps = s.lamps := (takeImage_keeps s).2.2.2.2.1
  have hup : allUp (updateIdle (takeImage s)) = allUp (takeImage s) := rfl
  have hlamp : anyLamp (updateIdle (takeImage s)) = anyLamp s := congrArg (fun v => v.any fun l => l.mode.lit) hlamps
  have hscan : (updateIdle (takeImage s)).scan = { s.scan with idleCount := idleCountAfter s (takeImage s) } := by rw [updateIdle_takeImage]
  simp only [watchDue, hup, hlamp, hscan, Bool.and_eq_true, bne_iff_ne, decide_eq_true_eq, Bool.not_eq_true', and_assoc]

end Sys2Proof.Machine

/-! ### The image taken, the halt taken, the HALT in flight ended (R5, R6, R16, R18, R42) -/

namespace Sys2Proof.Machine

theorem updateIdle_units (s : State) : (updateIdle s).link = s.link ∧ (updateIdle s).delivery = s.delivery ∧ (updateIdle s).mgr = s.mgr :=
  ⟨rfl, rfl, rfl⟩

theorem updateIdle_keeps (s : State) : (updateIdle s).lamps = s.lamps ∧ (updateIdle s).keys = s.keys := ⟨rfl, rfl⟩

theorem beginFrame_units (s : State) : (beginFrame s).link = s.link ∧ (beginFrame s).delivery = s.delivery ∧ (beginFrame s).mgr = s.mgr :=
  ⟨rfl, rfl, rfl⟩

section Entered

variable {s u : State} (h : Served s) (hl : u.link = s.link) (hd : u.delivery = s.delivery) (hm : u.mgr = s.mgr)
include h hl hd hm

theorem enterWatch_posted : ScanStatePosted s (serveAll (enterWatch u)) .watch := by
  unfold enterWatch
  refine scanStatePosted_serveAll h ?_ ?_ ?_ ?_
  exacts [hl, hd, congrArg Manager.sessions hm, rfl]

theorem enterActive_posted : ScanStatePosted s (serveAll (enterActive u)) .active := by
  unfold enterActive
  refine scanStatePosted_serveAll h ?_ ?_ ?_ ?_
  exacts [hl, hd, congrArg Manager.sessions hm, rfl]

end Entered

theorem imageTaken_serveAll {s : State} (h : Served s) (hh : s.scan.halt = none) : ImageTaken s (serveAll (afterImage (takeImage s))) := by
  obtain ⟨_, _, _, kdelivery, _, klink, kmgr, _⟩ := takeImage_keeps s
  have hcommon : ∀ t : State, t = serveAll (afterImage (takeImage s)) → t.keys = (takeImage s).keys ∧ t.disp = (takeImage s).disp ∧
      t.groups = s.groups ∧ t.lamps = s.lamps ∧ t.mgr = s.mgr ∧ t.pins = s.pins ∧ t.pending = s.pending := by
    rintro t rfl
    simp
  obtain ⟨c1, c2, c3, c4, c5, c6, c7⟩ := hcommon _ rfl
  refine ⟨c1, c2, c3, c4, c5, c6, c7, ?_⟩
  have hhalt : (takeImage s).scan.halt.isSome = false := by
    rw [(takeImage_keeps s).1, hh]
    rfl
  rcases afterImage_cases (takeImage s) with ⟨e, _⟩ | ⟨_, hdue, e⟩ | ⟨_, hdue, e⟩
  · rw [hhalt] at e
    cases e
  · rw [if_pos (watchDue_takeImage s |>.mp hdue), e]
    obtain ⟨ulink, udelivery, umgr⟩ := updateIdle_units (takeImage s)
    refine ⟨?_, enterWatch_posted h (ulink.trans klink) (udelivery.trans kdelivery) (umgr.trans kmgr)⟩
    rw [serveAll_scan, enterWatch_scan, updateIdle_takeImage]
  · have hno : ¬(s.scan.setup.idleLimit ≠ 0 ∧ s.scan.setup.idleLimit * 16 ≤ idleCountAfter s (takeImage s) ∧ allUp (takeImage s) = true ∧
        anyLamp s = false) := fun c => by
      rw [(watchDue_takeImage s).mpr c] at hdue
      cases hdue
    rw [if_neg hno, e]
    refine ⟨?_, fun q => h.portKept_serveAll ?_ ?_⟩
    · have hlamps : columnLamps (updateIdle (takeImage s)) (s.scan.frameNumber + 1) 0 = columnLamps (takeImage s) (s.scan.frameNumber + 1) 0 :=
        columnLamps_congr (updateIdle_keeps (takeImage s)).1 (updateIdle_keeps (takeImage s)).2 _ _
      have hscan : (updateIdle (takeImage s)).scan = { s.scan with idleCount := idleCountAfter s (takeImage s) } := by rw [updateIdle_takeImage]
      rw [serveAll_scan, beginFrame_scan, hscan, ← hlamps]
    · exact congrArg (PerPort.get · q) ((beginFrame_units _).1.trans ((updateIdle_units (takeImage s)).1.trans klink))
    · exact congrArg (PerPort.get · q) ((beginFrame_units _).2.1.trans ((updateIdle_units (takeImage s)).2.1.trans kdelivery))

/-- The reply that a HALT in flight is owed (R16). -/
def haltReply (x : HaltInFlight) : Reply :=
  { session := x.session, typ := typeScanControl, seq := x.seq, status := .ok, data := .scan .halted }

/-- HALTED entered and a meeting passed, the HALT in flight cleared; its reply is then produced. -/
def haltEntered (x : HaltInFlight) (s : State) : State :=
  { raceChoice x.port (enterHalted s) with scan := { (raceChoice x.port (enterHalted s)).scan with halt := none } }

theorem endHalt_eq {s : State} {x : HaltInFlight} (h : s.scan.halt = some x) : endHalt s = produce x.port (haltReply x) (haltEntered x s) := by
  have hst : (raceChoice x.port (enterHalted s)).scan.state = .halted := by rw [raceChoice_scan, enterHalted_scan]
  simp only [endHalt, h, haltReply, haltEntered, hst]

theorem haltEntered_keeps (x : HaltInFlight) (s : State) :
    (haltEntered x s).scan = { s.scan with
        state := .halted, halt := none, phase := .idle, recorded := 0, driveLines := 0, lampLines := 0, watchTimer := s.scan.watchTimer.stop } ∧
      (haltEntered x s).keys = s.keys ∧ (haltEntered x s).disp = s.disp ∧ (haltEntered x s).groups = s.groups ∧ (haltEntered x s).lamps = s.lamps ∧
      (haltEntered x s).mgr = s.mgr ∧ (haltEntered x s).pins = s.pins ∧ (haltEntered x s).pending = s.pending := by
  simp [haltEntered, enterHalted_scan]

theorem enterHalted_units (s : State) (q : Port) :
    (enterHalted s).link.get q = s.link.get q ∧
      (enterHalted s).delivery.get q = if adminPort s = some q then (s.delivery.get q).takeScanState .halted else s.delivery.get q := by
  refine ⟨by rw [(enterHalted_keeps s).2.2.2.2.1], ?_⟩
  unfold enterHalted
  rw [postScanState_delivery_eq]
  rfl

theorem produce_ended {p : Port} {r : Reply} {s : State} (h : isLive s p r.session = false) : produce p r s = s := by
  simp only [produce, h, Bool.false_and, Bool.false_eq_true, if_false]

theorem haltEnded_serveAll {s : State} {x : HaltInFlight} (h : Served s) (hx : s.scan.halt = some x) : HaltEnded s (serveAll (endHalt s)) x := by
  obtain ⟨k1, k2, k3, k4, k5, k6, k7, k8⟩ := haltEntered_keeps x s
  have hlive : isLive (haltEntered x s) x.port x.session = isLive s x.port x.session := isLive_congr (by rw [k6]) _ _
  have hother : ∀ q, q ≠ x.port → if adminPort s = some q then PostedTo s (serveAll (endHalt s)) q (Delivery.takeScanState .halted)
      else PortKept s (serveAll (endHalt s)) q := by
    intro q hq
    refine scanStatePosted_port h (enterHalted_units s q).1 (enterHalted_units s q).2 ?_
    have hs := servedIn_serveAll q (endHalt s)
    have hl : (endHalt s).link.get q = (enterHalted s).link.get q := by
      rw [endHalt_eq hx, produce_link_ne hq]
      exact raceChoice_link_ne hq _
    have hd : (endHalt s).delivery.get q = (enterHalted s).delivery.get q := by
      rw [endHalt_eq hx, produce_delivery]
      exact raceChoice_delivery_ne hq _
    rwa [hl, hd] at hs
  refine ⟨?_, ?_, ?_, ?_, ?_, ?_, ?_, ?_, hother, fun hdead => ?_, fun hl hheld => ?_⟩
  · rw [serveAll_scan, endHalt_eq hx, produce_scan, k1]
  · rw [serveAll_keys, endHalt_eq hx, produce_keys, k2]
  · rw [serveAll_disp, endHalt_eq hx, produce_disp, k3]
  · rw [serveAll_groups, endHalt_eq hx, produce_groups, k4]
  · rw [serveAll_lamps, endHalt_eq hx, produce_lamps, k5]
  · rw [serveAll_mgr, endHalt_eq hx, produce_mgr, k6]
  · rw [serveAll_pins, endHalt_eq hx, produce_pins, k7]
  · rw [serveAll_pending, endHalt_eq hx, produce_pending, k8]
  · intro q
    by_cases hq : q = x.port
    · subst hq
      have hdead' : isLive (haltEntered x s) x.port (haltReply x).session = false := hlive.trans hdead
      rw [endHalt_eq hx, produce_ended hdead']
      exact scanStatePosted_port h (enterHalted_units s x.port).1 (enterHalted_units s x.port).2
        (raced_servedIn (c := enterHalted s) (u := haltEntered x s) rfl rfl (by simp [haltEntered]) (by simp [haltEntered]))
    · exact hother q hq
  · obtain ⟨ulink, udelivery⟩ := enterHalted_units s x.port
    have hheld' : 0 < ((haltEntered x s).link.get x.port).held := by
      have hr : ((raceChoice x.port (enterHalted s)).link.get x.port).held = (s.link.get x.port).held := by rw [raceChoice_held, ulink]
      exact hr ▸ hheld
    have hp : endHalt s = updLink x.port (Link.withReply (haltReply x)) (haltEntered x s) :=
      (endHalt_eq hx).trans (produce_live (hlive.trans hl) hheld')
    obtain ⟨h1, h2, h3, h4⟩ := raced_replied (c := enterHalted s) (v := updLink x.port (Link.withReply (haltReply x)) (haltEntered x s))
      (r := haltReply x) (updLink_get_same _ _ _) rfl (by simp [haltEntered]) (by simp [haltEntered])
    have hfun : ∀ d, (if adminPort s = some x.port then Delivery.takeScanState .halted else id) d =
        if adminPort s = some x.port then d.takeScanState .halted else d := fun d => by
      split <;> rfl
    rw [ulink] at h2 h4
    rw [udelivery] at h3 h4
    rw [hp]
    refine ⟨⟨⟨s.delivery.get x.port, Or.inl rfl, ?_⟩, fun hb => ?_⟩, h1, h2, fun hb => (h4 (by rw [lineIdle, ulink]; exact hb)).1⟩
    · rw [hfun]
      exact h3
    · rw [hfun]
      exact (h4 (by rw [lineIdle, ulink]; exact hb)).2

/-! ### The stages, one after another -/

/-- The halt taken by the Key Table. -/
def haltTakenFrom (s : State) : State := { takeHalt s with scan := { s.scan with phase := .haltRouting } }

/-- The image taken with a HALT in flight: the halt is due. -/
def imageTakenToHalt (s : State) : State :=
  { takeImage s with scan := { s.scan with idleCount := idleCountAfter s (takeImage s), phase := .haltWaiting } }

theorem afterImage_toHalt {s : State} (h : s.scan.halt.isSome = true) : afterImage (takeImage s) = imageTakenToHalt s := by
  rw [← (takeImage_keeps s).1] at h
  rcases afterImage_cases (takeImage s) with ⟨_, e⟩ | ⟨e, _⟩ | ⟨e, _⟩
  · rw [e, updateIdle_takeImage]
    rfl
  all_goals
    rw [h] at e
    cases e

section Follow

variable {s : State} (hs : Served s) (hq : NoRequestReady s) (hw : s.disp.waiting = [])
include hs hq hw

theorem follows_image (hp : s.scan.phase = .imageWaiting) (hh : s.scan.halt = none) : ∃ t, Follows s t ∧ ImageTaken s t := by
  have hi : internal s = some (afterImage (takeImage s)) := hq.internal_eq.trans (scannerEvent_image hw hp)
  have ht := imageTaken_serveAll hs hh
  refine ⟨_, .step hi (.done ?_), ht⟩
  obtain ⟨_, _, _, _, hmgr, _, _, hscan⟩ := ht
  have hsnap : (serveAll (afterImage (takeImage s))).disp.snapshots = s.disp.snapshots := by simp
  rw [(hq.congr hmgr hsnap).internal_eq, scannerEvent_eq_none]
  refine Or.inr ?_
  split at hscan <;> rw [hscan.1] <;> exact ⟨nofun, nofun, nofun⟩

theorem follows_haltRouting (hp : s.scan.phase = .haltRouting) {x : HaltInFlight} (hx : s.scan.halt = some x) :
    ∃ t, Follows s t ∧ HaltEnded s t x := by
  have hi : internal s = some (endHalt s) := hq.internal_eq.trans (scannerEvent_haltRouting hw hp)
  have ht := haltEnded_serveAll hs hx
  refine ⟨_, .step hi (.done ?_), ht⟩
  obtain ⟨hscan, _, hdisp, _, _, hmgr, _⟩ := ht
  rw [(hq.congr hmgr (by rw [hdisp])).internal_eq, scannerEvent_eq_none, hscan]
  exact Or.inr ⟨nofun, nofun, nofun⟩

theorem follows_haltWaiting (hp : s.scan.phase = .haltWaiting) {x : HaltInFlight} (hx : s.scan.halt = some x) :
    ∃ t, Follows s t ∧ HaltTaken s t x := by
  obtain ⟨_, _, ksnap, kdelivery, _, klink, kmgr, _⟩ := takeHalt_keeps s
  have hi : internal s = some (haltTakenFrom s) := hq.internal_eq.trans (scannerEvent_haltWaiting hw hp)
  have hsame : serveAll (haltTakenFrom s) = haltTakenFrom s := hs.serveAll_eq klink kdelivery
  have hs' : Served (haltTakenFrom s) := by
    rw [← hsame]
    exact served_serveAll _
  have hq' : NoRequestReady (haltTakenFrom s) := hq.congr kmgr ksnap
  by_cases hv : (haltTakenFrom s).disp.waiting = []
  · obtain ⟨t, hf, ht⟩ := follows_haltRouting hs' hq' hv rfl hx
    exact ⟨t, .step hi (by rw [hsame]; exact hf), fun h => absurd hv h, fun _ => ht⟩
  · have hdone : internal (haltTakenFrom s) = none := by rw [hq'.internal_eq, scannerEvent_waiting hv]
    exact ⟨haltTakenFrom s, .step hi (by rw [hsame]; exact .done hdone), fun _ => rfl, fun h => absurd h hv⟩

theorem follows_imageBeforeHalt (hp : s.scan.phase = .imageWaiting) {x : HaltInFlight} (hx : s.scan.halt = some x) :
    ∃ t, Follows s t ∧ ImageTakenBeforeHalt s t x := by
  obtain ⟨_, _, ksnap, kdelivery, _, klink, kmgr, _⟩ := takeImage_keeps s
  have hi : internal s = some (imageTakenToHalt s) := by
    rw [hq.internal_eq, scannerEvent_image hw hp, afterImage_toHalt (by rw [hx]; rfl)]
  have hsame : serveAll (imageTakenToHalt s) = imageTakenToHalt s := hs.serveAll_eq klink kdelivery
  have hs' : Served (imageTakenToHalt s) := by
    rw [← hsame]
    exact served_serveAll _
  have hq' : NoRequestReady (imageTakenToHalt s) := hq.congr kmgr ksnap
  by_cases hv : (imageTakenToHalt s).disp.waiting = []
  · obtain ⟨t, hf, ht⟩ := follows_haltWaiting hs' hq' hv rfl hx
    exact ⟨t, .step hi (by rw [hsame]; exact hf), fun h => absurd hv h, fun _ => ht⟩
  · have hdone : internal (imageTakenToHalt s) = none := by rw [hq'.internal_eq, scannerEvent_waiting hv]
    exact ⟨imageTakenToHalt s, .step hi (by rw [hsame]; exact .done hdone), fun _ => rfl, fun h => absurd h hv⟩

end Follow

/-! ### A scan frame's completion (R4, R62) -/

theorem exec_scanFrameCompletion {s : State} (hp : s.scan.phase = .frameEnd) (hs : Settled s) {t : State} (h : Follows (completeFrame s) t) :
    exec .scanFrameCompletion s = .next t := by
  have hsame : serveAll (completeFrame s) = completeFrame s := Served.serveAll_eq hs.2 rfl rfl
  have hf : finish (completeFrame s) = t := Follows.finish (by rw [hsame]; exact h)
  simp only [exec, execScanFrameCompletion, hp, hf]

theorem served_completeFrame {s : State} (hs : Settled s) : Served (completeFrame s) := by
  have hsame : serveAll (completeFrame s) = completeFrame s := Served.serveAll_eq hs.2 rfl rfl
  rw [← hsame]
  exact served_serveAll _

theorem noRequestReady_completeFrame {s : State} (hp : s.scan.phase = .frameEnd) (hs : Settled s) (hw : s.disp.waiting = []) :
    NoRequestReady (completeFrame s) := by
  have hc : s.scan.completing = false := completing_eq_false.mpr (Or.inl (by rw [hp]; nofun))
  exact (noRequestReady_of_idle hs.1 hw hc).congr rfl rfl

/-- Settles O13: the image is taken at once, or waits for the Dispatcher. -/
theorem frameCompletion : Obligations.FrameCompletion := by
  refine ⟨fun s hp hs hw => ?_, fun s hp hs hw hh => ?_, fun s hp => ?_⟩
  · refine exec_scanFrameCompletion hp hs (.done ?_)
    refine internal_none_of hs.1 (scannerEvent_waiting hw) (fun q a ha => ?_) rfl fun q hq => hq
    have hc : s.scan.completing = false := completing_eq_false.mpr (Or.inl (by rw [hp]; nofun))
    cases a with
    | scanSetup su => rw [ownerReady, hc]; rfl
    | scanControl op => rw [ownerReady, hc]; rfl
    | close | grant _ | join _ _ | leave _ | lamps _ | status | mapLamps _ | groupSetup _ _ _ | dissolve _ | reset | snapshot _ | mapKeys _ =>
      exact ha
  · obtain ⟨t, hf, ht⟩ := follows_image (served_completeFrame hs) (noRequestReady_completeFrame hp hs hw) hw rfl hh
    exact ⟨t, exec_scanFrameCompletion hp hs hf, ht⟩
  · simp only [exec, execScanFrameCompletion]
    split
    · rename_i e
      exact absurd e hp
    all_goals rfl

/-- Settles O14. -/
theorem frameCompletionWithHalt : Obligations.FrameCompletionWithHalt := by
  intro s x hp hs hw hx
  obtain ⟨t, hf, ht⟩ := follows_imageBeforeHalt (served_completeFrame hs) (noRequestReady_completeFrame hp hs hw) hw rfl hx
  exact ⟨t, exec_scanFrameCompletion hp hs hf, ht⟩

end Sys2Proof.Machine

/-! ### The scanner leaves WATCH (R7, R8, R9) -/

namespace Sys2Proof.Machine

theorem takeWatchSample_active {s : State} {sense : BitVec 8} (hc : s.scan.setup.columnMask ≠ 0) (hs : sense ≠ 0xFF) :
    takeWatchSample sense s = enterActive s := by
  have h : watchSeesActivity sense s = true := by simp only [watchSeesActivity, Bool.and_eq_true, bne_iff_ne]; exact ⟨hc, hs⟩
  simp only [takeWatchSample, h, if_true]

theorem takeWatchSample_quiet {s : State} {sense : BitVec 8} (h : s.scan.setup.columnMask = 0 ∨ sense = 0xFF) :
    takeWatchSample sense s =
      { s with scan := { s.scan with watchTimer := s.scan.watchTimer.start s.scan.setup.watchPeriod.ms } } := by
  have hno : watchSeesActivity sense s = false := by
    simp only [watchSeesActivity, Bool.and_eq_false_iff, bne_eq_false_iff_eq]
    exact h
  simp only [takeWatchSample, hno, Bool.false_eq_true, if_false]

/-- One lit demand fewer has been signalled. -/
def demandTaken (n : Nat) (s : State) : State := { s with scan := { s.scan with litDemands := n } }

theorem exec_litDemand {s : State} {n : Nat} (h : s.scan.litDemands = n + 1) :
    exec .litDemand s = .next (finish (takeLitDemand (demandTaken n s))) := by
  simp only [exec, execLitDemand, h, demandTaken]

theorem takeLitDemand_watch {s : State} (h : s.scan.state = .watch) : takeLitDemand s = enterActive s := by
  simp only [takeLitDemand, h]

theorem takeLitDemand_awake {s : State} (h : s.scan.state ≠ .watch) : takeLitDemand s = s := by
  cases hst : s.scan.state with
  | watch => exact absurd hst h
  | active | halted => simp only [takeLitDemand, hst]

/-- Nothing follows when the scanner leaves WATCH: no image waited, so no request did. -/
theorem internal_enterActive {s u : State} (hs : internal s = none) (hw : s.scan.state = .watch) (hp : PanelSound s) (hd : u.disp = s.disp)
    (hm : u.mgr = s.mgr) : internal (enterActive u) = none := by
  obtain ⟨hactive, _⟩ := hp
  have hidle : s.scan.phase = .idle := by
    by_contra hne
    rw [hactive.mpr hne] at hw
    cases hw
  have hc : s.scan.completing = false := completing_eq_false.mpr (Or.inl (by rw [hidle]; nofun))
  have hc' : (enterActive u).scan.completing = false := completing_eq_false.mpr (Or.inl (by rw [enterActive_scan]; nofun))
  have hmgr : (enterActive u).mgr = s.mgr := by simp [hm]
  refine internal_none_of hs (scannerEvent_eq_none.mpr (Or.inr ?_)) (fun q a ha => ?_) (by rw [hmgr]) fun q hq => by rw [hmgr, hq]
  · rw [enterActive_scan]
    exact ⟨nofun, nofun, nofun⟩
  · rwa [ownerReady_congr (s := s) (by simp [hd]) (hc'.trans hc.symm)] at ha

/-- The scanner enters ACTIVE from WATCH, then every transmitter is served. -/
theorem finish_enterActive {s u : State} (hs : Settled s) (hw : s.scan.state = .watch) (hp : PanelSound s) (hd : u.disp = s.disp)
    (hm : u.mgr = s.mgr) : finish (enterActive u) = serveAll (enterActive u) := finish_quiet (internal_enterActive hs.1 hw hp hd hm)

/-- A change of the scanner that frees nothing ends the step. -/
theorem finish_setScan {s : State} (hs : Settled s) (sc : Scanner) (hp : sc.phase = s.scan.phase) (hh : sc.halt = s.scan.halt) :
    finish { s with scan := sc } = { s with scan := sc } := by
  have hc : sc.completing = s.scan.completing := by simp only [Scanner.completing, hp, hh]
  have hquiet : internal { s with scan := sc } = none := internal_none_congr (s := s) (t := { s with scan := sc }) rfl hp hc rfl rfl hs.1
  rw [finish_quiet hquiet]
  exact Served.serveAll_eq hs.2 rfl rfl

/-- Settles O17. -/
theorem watchSampleAndLitDemand : Obligations.WatchSampleAndLitDemand := by
  refine ⟨fun s sense hw hp hs hc hsense => ?_, fun s sense hw hs hquiet => ?_, fun s sense hw => ?_, fun s n hn hw hp hs => ?_,
    fun s n hn hw hs => ?_, fun s hn => ?_⟩
  · have hexec : exec (.watchSample sense) s = .next (serveAll (enterActive s)) := by
      simp only [exec, execWatchSample, hw, takeWatchSample_active hc hsense, finish_enterActive hs hw hp rfl rfl]
    refine ⟨_, hexec, ?_, ?_⟩
    · rw [serveAll_scan, enterActive_scan]
    · exact ⟨by simp, by simp, by simp, by simp, by simp, by simp, by simp, enterActive_posted hs.2 rfl rfl rfl⟩
  · simp only [exec, execWatchSample, hw, takeWatchSample_quiet hquiet]
    exact congrArg _ (finish_setScan hs _ rfl rfl)
  · cases hst : s.scan.state with
    | watch => exact absurd hst hw
    | active | halted => simp only [exec, execWatchSample, hst]
  · have hexec : exec .litDemand s = .next (serveAll (enterActive (demandTaken n s))) := by
      rw [exec_litDemand hn, takeLitDemand_watch (s := demandTaken n s) hw, finish_enterActive hs hw hp (u := demandTaken n s) rfl rfl]
    refine ⟨_, hexec, ?_, ?_⟩
    · rw [serveAll_scan, enterActive_scan]
      rfl
    · exact ⟨by simp [demandTaken], by simp [demandTaken], by simp [demandTaken], by simp [demandTaken], by simp [demandTaken],
        by simp [demandTaken], by simp [demandTaken], enterActive_posted hs.2 rfl rfl rfl⟩
  · rw [exec_litDemand hn, takeLitDemand_awake (s := demandTaken n s) hw]
    exact congrArg _ (finish_setScan hs _ rfl rfl)
  · simp only [exec, execLitDemand, hn]

end Sys2Proof.Machine

/-! ### Routing (R62, R63, R65, R67) -/

namespace Sys2Proof.Machine

/-- What the routing of a transition of a group makes of a port's Delivery Unit. -/
def memberChange (s : State) (t : Transition) (g : Group) (q : Port) : Delivery → Delivery :=
  if isOpen s q = true then (memberMode s g q).elim id (memberPost t g) else id

theorem memberChange_congr {s u : State} (hg : u.groups = s.groups) (hm : u.mgr = s.mgr) (t : Transition) (g : Group) (q : Port) :
    memberChange u t g q = memberChange s t g q := by
  simp only [memberChange, memberMode, hg, isOpen_congr (s := s) (t := u) (by rw [hm])]

theorem routeTo_delivery (t : Transition) (g : Group) (s : State) (p q : Port) :
    (routeTo t g s p).delivery.get q = if q = p then memberChange s t g q (s.delivery.get q) else s.delivery.get q := by
  unfold routeTo memberChange
  by_cases hq : q = p
  · subst hq
    rw [if_pos rfl]
    cases memberMode s g q with
    | none => cases isOpen s q <;> rfl
    | some m =>
      rw [post_delivery_same]
      cases isOpen s q <;> rfl
  · rw [if_neg hq]
    cases memberMode s g p with
    | none => rfl
    | some m => exact post_delivery_ne hq _ s

theorem route_delivery {t : Transition} {g : Group} (h : t.group = some g) (s : State) (q : Port) :
    (route t s).delivery.get q = memberChange s t g q (s.delivery.get q) := by
  have hstep : ∀ u p, memberChange (routeTo t g u p) t g q = memberChange u t g q := fun u p => memberChange_congr (by simp) (by simp) t g q
  simp only [route, h, List.foldl_cons, List.foldl_nil, routeTo_delivery, hstep]
  cases q <;> simp

theorem route_none {t : Transition} (h : t.group = none) (s : State) : route t s = s := by
  simp only [route, h]

section

variable {s : State} {tr : Transition} {rest : List Transition} (hw : s.disp.waiting = tr :: rest)
include hw

theorem routeNext_keeps :
    (routeNext s).disp = { s.disp with waiting := rest } ∧ (routeNext s).scan = s.scan ∧ (routeNext s).keys = s.keys ∧
      (routeNext s).groups = s.groups ∧ (routeNext s).lamps = s.lamps ∧ (routeNext s).mgr = s.mgr ∧ (routeNext s).pins = s.pins ∧
      (routeNext s).pending = s.pending ∧ (routeNext s).link = s.link := by
  simp [routeNext, hw]

theorem routeNext_none (h : tr.group = none) : (routeNext s).delivery = s.delivery := by
  simp only [routeNext, hw, route_none h]

theorem routeNext_delivery {g : Group} (h : tr.group = some g) (q : Port) :
    (routeNext s).delivery.get q = memberChange s tr g q (s.delivery.get q) := by
  simp only [routeNext, hw, route_delivery h]
  rfl

/-- The oldest transition is routed, then every transmitter is served. -/
theorem routed_serveAll (h : Served s) : Routed s (serveAll (routeNext s)) tr rest := by
  obtain ⟨k1, k2, k3, k4, k5, k6, k7, k8, klink⟩ := routeNext_keeps hw
  have hkept : ∀ q, (routeNext s).delivery.get q = s.delivery.get q → PortKept s (serveAll (routeNext s)) q := fun q e =>
    h.portKept_serveAll (by rw [klink]) e
  have hposted : ∀ (q : Port) (f : Delivery → Delivery), (routeNext s).delivery.get q = f (s.delivery.get q) →
      PostedTo s (serveAll (routeNext s)) q f := fun q f e => by
    have hs := servedIn_serveAll q (routeNext s)
    rw [klink, e] at hs
    exact hs
  refine ⟨by simp [k1], by simp [k2], by simp [k3], by simp [k4], by simp [k5], by simp [k6], by simp [k7], by simp [k8],
    fun hg q => hkept q (by rw [routeNext_none hw hg]), fun g hg q => ⟨fun hno => hkept q ?_, fun ho hm => hposted q _ ?_, fun ho hm => ?_⟩⟩
  · rw [routeNext_delivery hw hg, memberChange]
    rcases hno with e | e <;> simp [e]
  · rw [routeNext_delivery hw hg, memberChange, if_pos ho, hm]
    rfl
  · have hd : (routeNext s).delivery.get q = memberPost tr g .latched (s.delivery.get q) := by
      rw [routeNext_delivery hw hg, memberChange, if_pos ho, hm]
      rfl
    refine ⟨fun hk => hkept q ?_, fun hk => hposted q _ ?_⟩
    · rw [hd, memberPost, if_pos hk]
    · rw [hd, memberPost, if_neg hk]

omit hw in
theorem exec_routeTransition {t : State} (h : Follows (serveAll (routeNext s)) t) : exec .routeTransition s = .next t := by
  rw [exec, execRouteTransition, h.finish]

theorem noRequestReady_routed (hs : Settled s) (ho : OnlySnapshotsWait s fun _ => True) : NoRequestReady (serveAll (routeNext s)) :=
  (noRequestReady_of_snapshots hs.1 ho).congr (by simp [(routeNext_keeps hw).2.2.2.2.2.1]) (by simp [(routeNext_keeps hw).1])

/-- While further transitions wait nothing follows a routing. -/
theorem internal_routed (hs : Settled s) (hr : rest ≠ []) : internal (serveAll (routeNext s)) = none := by
  obtain ⟨hdisp, hscan, _, _, _, hmgr, _⟩ := routed_serveAll hw hs.2
  refine internal_none_of hs.1 (scannerEvent_waiting (by rw [hdisp]; exact hr)) (fun q a ha => ?_) (by rw [hmgr]) fun q hq => by rw [hmgr, hq]
  cases a with
  | close | grant _ | join _ _ | leave _ | lamps _ | status | mapLamps _ | groupSetup _ _ _ | dissolve _ | reset => rfl
  | snapshot g => rwa [ownerReady, hdisp] at ha
  | mapKeys es =>
    rw [ownerReady, hdisp] at ha
    exact absurd (List.isEmpty_iff.mp ha) hr
  | scanSetup su => rwa [ownerReady, hscan] at ha
  | scanControl op => rwa [ownerReady, hscan] at ha

end

/-- Settles O28. -/
theorem routeTransition : Obligations.RouteTransition := by
  refine ⟨fun s hw hs => ?_, fun s tr rest hw hs hcase => ?_⟩
  · have hroute : routeNext s = s := by simp only [routeNext, hw]
    rw [exec, execRouteTransition, hroute, finish_settled hs]
  · refine ⟨serveAll (routeNext s), exec_routeTransition (.done ?_), routed_serveAll hw hs.2⟩
    rcases hcase with hr | ⟨ho, hdark⟩
    · exact internal_routed hw hs hr
    · have hscan : (serveAll (routeNext s)).scan = s.scan := (routed_serveAll hw hs.2).2.1
      rw [(noRequestReady_routed hw hs ho).internal_eq, scannerEvent_eq_none, hscan]
      exact Or.inr hdark

/-- Settles O15. -/
theorem haltEndsWhenRouted : Obligations.HaltEndsWhenRouted := by
  intro s x tr rest hp hx hw hs ho
  have hrouted := routed_serveAll hw hs.2
  obtain ⟨hdisp, hscan, _⟩ := routed_serveAll hw hs.2
  by_cases hr : rest = []
  · obtain ⟨t, hf, ht⟩ := follows_haltRouting (served_serveAll _) (noRequestReady_routed hw hs ho) (by rw [hdisp]; exact hr)
      (by rw [hscan]; exact hp) (by rw [hscan]; exact hx)
    exact ⟨_, t, exec_routeTransition hf, hrouted, fun h => absurd hr h, fun _ => ht⟩
  · exact ⟨_, _, exec_routeTransition (.done (internal_routed hw hs hr)), hrouted, fun _ => rfl, fun h => absurd h hr⟩

end Sys2Proof.Machine

/-! ### The request that waited with the image is taken once the image has been (R11, R13, R14, R15) -/

namespace Sys2Proof.Machine

/-- The reply produced for a request of a session that is still OPEN stands at the port. -/
theorem replied_replyTo {s : State} {r : Request} (hlive : isLive s r.port r.session = true) (hheld : 0 < (s.link.get r.port).held) (st : Status)
    (data : ReplyData) :
    Replied (serveAll (replyTo r st data s)) r.port { session := r.session, typ := r.typ, seq := r.seq, status := st, data } := by
  have hp : replyTo r st data s = updLink r.port (Link.withReply { session := r.session, typ := r.typ, seq := r.seq, status := st, data }) s :=
    produce_live (r := { session := r.session, typ := r.typ, seq := r.seq, status := st, data }) hlive hheld
  have hmem : ∀ (x : Reply) (l : Link), x ∈ (l.withReply x).replies := fun x l => List.mem_append_right _ (List.mem_singleton.mpr rfl)
  rw [hp, Replied]
  refine serveAll_link (P := fun l => _ ∈ l.replies ∨ ∃ f ∈ l.resend, f.body = .reply _) (Or.inl ?_) fun l' _ hl => ?_
  · rw [updLink_get_same]
    exact hmem _ _
  · rw [updLink_get_same] at hl
    exact hl.replies _ (Or.inl (hmem _ _))

/-- One owner alone has a request it can take. -/
theorem ownerEvent_only {s : State} {p : Port} {x : Handed} (hx : readyRequest s p = some x) (ho : ∀ q, q ≠ p → readyRequest s q = none) :
    ownerEvent s = some (takeByOwner x (setHanded p none s)) := by
  simp only [ownerEvent, List.findSome?_cons, List.findSome?_nil]
  cases p with
  | p0 => rw [hx]; rfl
  | p1 => rw [ho .p0 nofun, hx]; rfl
  | p2 => rw [ho .p0 nofun, ho .p1 nofun, hx]; rfl

/-- Nothing follows once the one request that could be taken has left its place, with none of its port queued behind it. -/
theorem internal_setHanded {s : State} {p : Port} (hsc : scannerEvent s = none) (ho : ∀ q, q ≠ p → readyRequest s q = none)
    (hm : managerEvent s = none) (hi : s.mgr.inbox.get p = []) : internal (setHanded p none s) = none := by
  rw [internal_eq_none, ownerEvent_eq_none, managerEvent_eq_none]
  rw [managerEvent_eq_none] at hm
  have hsc' : scannerEvent (setHanded p none s) = none := by
    rw [scannerEvent_eq_none] at hsc ⊢
    exact hsc
  refine ⟨hsc', fun q => ?_, fun q => ?_⟩
  · by_cases hq : q = p
    · subst hq
      rw [readyRequest, setHanded_handed_same]
      rfl
    · rw [← ho q hq, readyRequest, setHanded_handed_ne hq]
      rfl
  · by_cases hq : q = p
    · subst hq
      rw [nextRequest, setHanded_inbox, hi]
      split <;> trivial
    · rw [← hm q, nextRequest, setHanded_handed_ne hq]
      rfl

/-- What the taking of a scanner request leaves unchanged. -/
theorem carryOut_scanRequest {ask : Ask} (ha : (∃ su, ask = .scanSetup su) ∨ ∃ op, ask = .scanControl op) (r : Request) (s : State) :
    (carryOut r ask s).keys = s.keys ∧ (carryOut r ask s).disp = s.disp ∧ (carryOut r ask s).groups = s.groups ∧
      (carryOut r ask s).lamps = s.lamps ∧ (carryOut r ask s).mgr = s.mgr := by
  rcases ha with ⟨su, rfl⟩ | ⟨op, rfl⟩
  · simp only [carryOut, takeScanSetup]
    split <;> simp
  · cases op with
    | start =>
      simp only [carryOut, takeScanControl, takeScanStart, scanReply]
      split
      · simp
      · split <;> simp
    | halt =>
      simp only [carryOut, takeScanControl, takeScanHalt, scanReply]
      split
      · simp
      · split <;> simp
    | watch =>
      simp only [carryOut, takeScanControl, takeScanWatch, scanReply]
      split
      · simp
      · split
        · simp
        · simp
        · split <;> simp

/-- The reply to a request (R120). -/
def answerTo (r : Request) (st : Status) (data : ReplyData) : Reply := { session := r.session, typ := r.typ, seq := r.seq, status := st, data }

theorem replied_scanReply {s e : State} {r : Request} (hlive : isLive s r.port r.session = true) (hheld : 0 < (s.link.get r.port).held)
    (hl : e.link = s.link) (hm : e.mgr = s.mgr) {st : ScanState} (hst : e.scan.state = st) :
    Replied (serveAll (scanReply r .ok (raceChoice r.port e))) r.port (answerTo r .ok (.scan st)) := by
  have hdata : scanReply r .ok (raceChoice r.port e) = replyTo r .ok (.scan st) (raceChoice r.port e) := by
    simp only [scanReply, raceChoice_scan, hst]
  rw [hdata]
  exact replied_replyTo (by rwa [isLive_congr (s := s) (by simp [hm])]) (by rwa [raceChoice_held, hl]) _ _

section Taken

variable {s : State} {r : Request} (hh : s.scan.halt = none) (hlive : isLive s r.port r.session = true) (hheld : 0 < (s.link.get r.port).held)
include hlive hheld

theorem takeScanSetup_running (su : ScanSetup) (hst : s.scan.state ≠ .halted) :
    (serveAll (takeScanSetup r su s)).scan = s.scan ∧ Replied (serveAll (takeScanSetup r su s)) r.port (answerTo r .scanRunning .none) := by
  simp only [takeScanSetup, hst, if_false]
  exact ⟨by simp, replied_replyTo hlive hheld _ _⟩

include hh

theorem takeScanStart_running (hst : s.scan.state ≠ .halted) :
    (serveAll (takeScanStart r s)).scan.state = .active ∧ (serveAll (takeScanStart r s)).scan.halt = none ∧
      Replied (serveAll (takeScanStart r s)) r.port (answerTo r .ok (.scan .active)) := by
  cases hs : s.scan.state with
  | halted => exact absurd hs hst
  | active =>
    simp only [takeScanStart, scanReply, hh, hs, Option.isSome_none, Bool.false_eq_true, if_false]
    exact ⟨by simp [hs], by simp [hh], replied_replyTo hlive hheld _ _⟩
  | watch =>
    simp only [takeScanStart, hh, hs, Option.isSome_none, Bool.false_eq_true, if_false]
    refine ⟨by simp [scanReply, enterActive_scan], by simp [scanReply, enterActive_scan, hh], replied_scanReply hlive hheld (by simp) (by simp) ?_⟩
    rw [enterActive_scan]

theorem takeScanHalt_watch (hst : s.scan.state = .watch) :
    (serveAll (takeScanHalt r s)).scan.state = .halted ∧ (serveAll (takeScanHalt r s)).scan.halt = none ∧
      Replied (serveAll (takeScanHalt r s)) r.port (answerTo r .ok (.scan .halted)) := by
  simp only [takeScanHalt, hh, hst, Option.isSome_none, Bool.false_eq_true, if_false]
  refine ⟨by simp [scanReply, enterHalted_scan], by simp [scanReply, enterHalted_scan, hh], replied_scanReply hlive hheld (by simp) (by simp) ?_⟩
  rw [enterHalted_scan]

omit hlive hheld in
theorem takeScanHalt_active (hst : s.scan.state = .active) :
    (serveAll (takeScanHalt r s)).scan = { s.scan with halt := some { port := r.port, session := r.session, seq := r.seq } } ∧
      ((serveAll (takeScanHalt r s)).link.get r.port).held = (s.link.get r.port).held := by
  simp only [takeScanHalt, hh, hst, Option.isSome_none, Bool.false_eq_true, if_false]
  exact ⟨serveAll_scan _, serveAll_held _ _⟩

theorem takeScanWatch_watch (hst : s.scan.state = .watch) :
    (serveAll (takeScanWatch r s)).scan = s.scan ∧ Replied (serveAll (takeScanWatch r s)) r.port (answerTo r .ok (.scan .watch)) := by
  simp only [takeScanWatch, scanReply, hh, hst, Option.isSome_none, Bool.false_eq_true, if_false]
  exact ⟨by simp, replied_replyTo hlive hheld _ _⟩

theorem takeScanWatch_active (hst : s.scan.state = .active) (hu : allUp s = true) (hl : anyLamp s = false) :
    (serveAll (takeScanWatch r s)).scan.state = .watch ∧ (serveAll (takeScanWatch r s)).scan.phase = .idle ∧
      Replied (serveAll (takeScanWatch r s)) r.port (answerTo r .ok (.scan .watch)) := by
  simp only [takeScanWatch, hh, hst, hu, hl, Option.isSome_none, Bool.false_eq_true, if_false, Bool.not_false, Bool.and_self, if_true]
  refine ⟨by simp [scanReply, enterWatch_scan], by simp [scanReply, enterWatch_scan], replied_scanReply hlive hheld (by simp) (by simp) ?_⟩
  rw [enterWatch_scan]

theorem takeScanWatch_notIdle (hst : s.scan.state = .active) (hb : allUp s = false ∨ anyLamp s = true) :
    (serveAll (takeScanWatch r s)).scan = s.scan ∧ Replied (serveAll (takeScanWatch r s)) r.port (answerTo r .notIdle (.scan .active)) := by
  have hno : (allUp s && !anyLamp s) = false := by rcases hb with e | e <;> simp [e]
  simp only [takeScanWatch, scanReply, hh, hst, hno, Option.isSome_none, Bool.false_eq_true, if_false]
  exact ⟨by simp, replied_replyTo hlive hheld _ _⟩

end Taken

/-! #### The image, then the request -/

theorem imageTaken_scan {s t : State} (h : ImageTaken s t) (ha : s.scan.state = .active) :
    (t.scan.state = .watch ∧ t.scan.phase = .idle ∨ t.scan.state = .active ∧ t.scan.phase = .slot 0) ∧ t.scan.halt = s.scan.halt := by
  obtain ⟨_, _, _, _, _, _, _, h⟩ := h
  split at h <;> rw [h.1]
  · exact ⟨Or.inl ⟨rfl, rfl⟩, rfl⟩
  · exact ⟨Or.inr ⟨ha, rfl⟩, rfl⟩

theorem scanRequest_canWait {ask : Ask} (ha : (∃ su, ask = .scanSetup su) ∨ ∃ op, ask = .scanControl op) (s : State) (p : Port) :
    ownerReady s p ask = !s.scan.completing := by
  rcases ha with ⟨su, rfl⟩ | ⟨op, rfl⟩ <;> rfl

theorem readyRequest_snapshots {s t : State} {on : Port → Prop} (ho : OnlySnapshotsWait s on) (hs : internal s = none)
    (hd : t.disp.snapshots = s.disp.snapshots) {q : Port} (hq : on q) (hh : t.mgr.handed.get q = s.mgr.handed.get q) :
    readyRequest t q = none := by
  have hno : readyRequest s q = none := ownerEvent_eq_none.mp (internal_eq_none.mp hs).2.1 q
  rw [readyRequest, Option.filter_eq_none_iff] at hno ⊢
  rw [hh]
  intro x hx e
  obtain ⟨g, hg⟩ := ho q x hq hx
  refine hno x hx ?_
  rw [hg, ownerReady] at e ⊢
  rwa [hd] at e

/-- A scanner request that waits with the image is taken once the image has been. -/
theorem follows_imageThenRequest {s u : State} {p : Port} {r : Request} {ask : Ask} (hs : Settled s) (hu : Served u) (hw : u.disp.waiting = [])
    (hsnap : u.disp.snapshots = s.disp.snapshots) (hm : u.mgr = s.mgr) (hp : u.scan.phase = .imageWaiting) (hh : u.scan.halt = none)
    (hx : s.mgr.handed.get p = some { req := r, ask := ask }) (ha : (∃ su, ask = .scanSetup su) ∨ ∃ op, ask = .scanControl op) (hr : r.port = p)
    (ho : OnlySnapshotsWait s (· ≠ p)) (hi : s.mgr.inbox.get p = []) (hlive : isLive s p r.session = true) (hact : u.scan.state = .active) :
    ∃ v, ImageTaken u v ∧ (v.link.get p).held = (u.link.get p).held ∧ Follows u (serveAll (carryOut r ask (setHanded p none v))) := by
  have hmanager : ∀ {t : State}, t.mgr = s.mgr → managerEvent t = none := fun e => by
    have h := (internal_eq_none.mp hs.1).2.2
    rw [managerEvent_eq_none] at h ⊢
    intro q
    rw [← h q, nextRequest, nextRequest, e]
  have hothers : ∀ {t : State}, t.mgr = s.mgr → t.disp.snapshots = s.disp.snapshots → ∀ q, q ≠ p → readyRequest t q = none :=
    fun e e' q hq => readyRequest_snapshots ho hs.1 e' hq (by rw [e])
  have hown : ∀ {t : State}, t.mgr = s.mgr →
      readyRequest t p = if t.scan.completing = true then none else some { req := r, ask := ask } := fun e => by
    rw [readyRequest, e, hx, Option.filter_some, scanRequest_canWait ha]
    cases Scanner.completing _ <;> rfl
  have hnone : requestEvent u = none := by
    refine requestEvent_eq_none.mpr ⟨ownerEvent_eq_none.mpr fun q => ?_, hmanager hm⟩
    by_cases hq : q = p
    · subst hq
      rw [hown hm, if_pos]
      simp only [Scanner.completing, hp, hh]
      rfl
    · exact hothers hm hsnap q hq
  have hi1 : internal u = some (afterImage (takeImage u)) := (internal_scanner hnone).trans (scannerEvent_image hw hp)
  have hv := imageTaken_serveAll hu hh
  have hmgr : (serveAll (afterImage (takeImage u))).mgr = s.mgr := by simp [hm]
  have hsnap' : (serveAll (afterImage (takeImage u))).disp.snapshots = s.disp.snapshots := by simp [hsnap]
  obtain ⟨hplace, _⟩ := imageTaken_scan hv hact
  have hdark : scannerEvent (serveAll (afterImage (takeImage u))) = none := by
    refine scannerEvent_eq_none.mpr (Or.inr ?_)
    rcases hplace with ⟨_, e⟩ | ⟨_, e⟩ <;> rw [e] <;> exact ⟨nofun, nofun, nofun⟩
  have hfree : (serveAll (afterImage (takeImage u))).scan.completing = false := by
    refine completing_eq_false.mpr (Or.inl ?_)
    rcases hplace with ⟨_, e⟩ | ⟨_, e⟩ <;> rw [e] <;> nofun
  have hready : readyRequest (serveAll (afterImage (takeImage u))) p = some { req := r, ask := ask } := by
    rw [hown hmgr, hfree]
    rfl
  have hevent := ownerEvent_only hready (hothers hmgr hsnap')
  have hlive' : requestLive (setHanded p none (serveAll (afterImage (takeImage u)))) r = true := by
    rw [requestLive, hr, isLive_congr (s := s) (by rw [setHanded_sessions, hmgr])]
    exact hlive
  have hi2 : internal (serveAll (afterImage (takeImage u))) =
      some (carryOut r ask (setHanded p none (serveAll (afterImage (takeImage u))))) := by
    rw [internal_request hdark, requestEvent, hevent, takeByOwner, if_pos hlive']
    rfl
  have hquiet : internal (setHanded p none (serveAll (afterImage (takeImage u)))) = none :=
    internal_setHanded hdark (hothers hmgr hsnap') (hmanager hmgr) (by rw [hmgr, hi])
  have hdone : internal (carryOut r ask (setHanded p none (serveAll (afterImage (takeImage u))))) = none := by
    refine internal_carryOut hquiet ?_
    rw [scanRequest_canWait ha, setHanded_scan, hfree]
    rfl
  refine ⟨_, hv, ?_, .step hi1 (.step hi2 (.done (internal_serveAll_none hdone)))⟩
  rw [serveAll_held]
  have hlink : (afterImage (takeImage u)).link = u.link := by simp
  rw [hlink]

end Sys2Proof.Machine

namespace Sys2Proof.Machine

theorem routed_held {s t : State} {tr : Transition} {rest : List Transition} (hw : s.disp.waiting = tr :: rest) (p : Port)
    (ht : t = serveAll (routeNext s)) : (t.link.get p).held = (s.link.get p).held := by
  obtain ⟨_, _, _, _, _, _, _, _, hlink⟩ := routeNext_keeps hw
  rw [ht, serveAll_held, hlink]

theorem carryOut_scanSetup (r : Request) (su : ScanSetup) (s : State) : carryOut r (.scanSetup su) s = takeScanSetup r su s := rfl

theorem carryOut_start (r : Request) (s : State) : carryOut r (.scanControl .start) s = takeScanStart r s := rfl

theorem carryOut_halt (r : Request) (s : State) : carryOut r (.scanControl .halt) s = takeScanHalt r s := rfl

theorem carryOut_watch (r : Request) (s : State) : carryOut r (.scanControl .watch) s = takeScanWatch r s := rfl

/-- Settles O16. -/
theorem lastRoutingTakesWhatWaited : Obligations.LastRoutingTakesWhatWaited := by
  refine ⟨fun s tr hw hs ho => ?_, ?_⟩
  · have hrouted := routed_serveAll hw hs.2
    obtain ⟨hdisp, hscan, _⟩ := routed_serveAll hw hs.2
    have hserved := served_serveAll (routeNext s)
    have hready := noRequestReady_routed hw hs ho
    have hempty : (serveAll (routeNext s)).disp.waiting = [] := by rw [hdisp]
    refine ⟨fun hp hh => ?_, fun x hx => ⟨fun hp => ?_, fun hp => ?_⟩⟩
    · obtain ⟨t, hf, ht⟩ := follows_image hserved hready hempty (by rw [hscan]; exact hp) (by rw [hscan]; exact hh)
      exact ⟨_, t, exec_routeTransition hf, hrouted, ht⟩
    · obtain ⟨t, hf, ht⟩ := follows_imageBeforeHalt hserved hready hempty (by rw [hscan]; exact hp) (by rw [hscan]; exact hx)
      exact ⟨_, t, exec_routeTransition hf, hrouted, ht⟩
    · obtain ⟨t, hf, ht⟩ := follows_haltWaiting hserved hready hempty (by rw [hscan]; exact hp) (by rw [hscan]; exact hx)
      exact ⟨_, t, exec_routeTransition hf, hrouted, ht⟩
  · intro s tr p r ask hw hs hps hp hh hx ha hr ho hi hlive hheld answer
    subst hr
    have hrouted := routed_serveAll hw hs.2
    obtain ⟨hdisp, hscan, _, hgroups, hlamps, hmgr, _⟩ := routed_serveAll hw hs.2
    obtain ⟨hactive, _⟩ := hps
    have hact : (serveAll (routeNext s)).scan.state = .active := by
      rw [hscan]
      exact hactive.mpr (by rw [hp]; nofun)
    have hhalt : (serveAll (routeNext s)).scan.halt = none := by rw [hscan, hh]
    obtain ⟨v, hv, hvheld, hf⟩ := follows_imageThenRequest hs (served_serveAll _) (by rw [hdisp]) (by rw [hdisp]) hmgr (by rw [hscan, hp]) hhalt hx ha
      rfl ho hi hlive hact
    obtain ⟨hplace, hvhalt⟩ := imageTaken_scan hv hact
    obtain ⟨_, _, vgroups, vlamps, vmgr, _⟩ := id hv
    obtain ⟨c1, c2, c3, c4, c5⟩ := carryOut_scanRequest ha r (setHanded r.port none v)
    have hwhalt : (setHanded r.port none v).scan.halt = none := hvhalt.trans hhalt
    have hwlive : isLive (setHanded r.port none v) r.port r.session = true := by
      rw [isLive_congr (s := s) (by rw [setHanded_sessions, vmgr, hmgr])]
      exact hlive
    have hwheld : 0 < ((setHanded r.port none v).link.get r.port).held := by
      rw [setHanded_link, hvheld, routed_held hw _ rfl]
      exact hheld
    have hrunning : (setHanded r.port none v).scan.state ≠ .halted := by
      rcases hplace with ⟨e, _⟩ | ⟨e, _⟩ <;> rw [setHanded_scan, e] <;> nofun
    refine ⟨_, v, _, exec_routeTransition hf, hrouted, hv, ?_, ?_, ?_, ?_, ?_, fun su e => ?_, fun e => ?_, fun e => ?_, fun e => ?_⟩
    · rw [serveAll_mgr, c5, setHanded, vmgr, hmgr]
    · rw [serveAll_keys, c1, setHanded_keys]
    · rw [serveAll_disp, c2, setHanded_disp]
    · rw [serveAll_groups, c3, setHanded_groups, vgroups, hgroups]
    · rw [serveAll_lamps, c4, setHanded_lamps, vlamps, hlamps]
    · subst e
      rw [carryOut_scanSetup]
      exact takeScanSetup_running hwlive hwheld su hrunning
    · subst e
      rw [carryOut_start]
      exact takeScanStart_running hwhalt hwlive hwheld hrunning
    · subst e
      rw [carryOut_halt]
      exact ⟨takeScanHalt_watch (s := setHanded r.port none v) hwhalt hwlive hwheld, takeScanHalt_active (s := setHanded r.port none v) hwhalt⟩
    · subst e
      rw [carryOut_watch]
      refine ⟨fun hcase => ?_, takeScanWatch_notIdle (s := setHanded r.port none v) hwhalt hwlive hwheld⟩
      rcases hplace with ⟨hst, hph⟩ | ⟨hst, _⟩
      · obtain ⟨h1, h2⟩ := takeScanWatch_watch hwhalt hwlive hwheld hst
        exact ⟨(congrArg Scanner.state h1).trans hst, (congrArg Scanner.phase h1).trans hph, h2⟩
      · rcases hcase with e | ⟨hu, hl⟩
        · rw [hst] at e
          cases e
        · exact takeScanWatch_active hwhalt hwlive hwheld hst hu hl

end Sys2Proof.Machine

/-! ### The read of a SNAPSHOT (R43, R78, R79) -/

namespace Sys2Proof.Machine

/-! #### A reply on a settled port -/

theorem newFrame?_eq_none {run : Nat} {reply notice report : Bool} :
    newFrame? run reply notice report = none ↔ reply = false ∧ notice = false ∧ report = false := by
  rw [newFrame?_eq]
  by_cases h : 4 ≤ run <;> cases reply <;> cases notice <;> cases report <;> simp [h]

/-- With nothing to send above an ACK, a reply produced is the one new frame there is. -/
theorem NothingAboveAck.withReply_delivery {l : Link} {d : Delivery} (h : NothingAboveAck l d) {r : Reply} {n m : Word16} {x : Link × Delivery}
    (hc : Machine.choice n m (l.withReply r) d = some x) : x.2 = d := by
  obtain ⟨_, _, _, hnew⟩ := h
  have hfalse : l.burst = none → l.resend.length < Config.resendCapacity → d.noticeEligible = false ∧ d.reportEligible = false := fun hb hr => by
    rcases hnew with e | e | e
    · exact absurd hb e
    · exact absurd hr (Nat.not_lt.mpr e)
    · exact (newFrame?_eq_none.mp e).2
  rcases choice_cases hc with ⟨_, _, _, _, rfl⟩ | ⟨_, _, rfl⟩ | ⟨_, rfl⟩ | ⟨hb, hr, ⟨_, _, _, _, rfl⟩ | ⟨hn, _⟩ | ⟨hn, _⟩⟩ | ⟨_, rfl⟩
  · rfl
  · rfl
  · rfl
  · rfl
  · rw [(hfalse hb hr).1, (hfalse hb hr).2, newFrame?_eq] at hn
    cases hreply : (!(l.withReply r).replies.isEmpty) <;> simp [hreply] at hn
  · rw [(hfalse hb hr).1, (hfalse hb hr).2, newFrame?_eq] at hn
    cases hreply : (!(l.withReply r).replies.isEmpty) <;> simp [hreply] at hn
  · rfl

/-- A reply produced on a settled port: the service that follows composes no notice and no report. -/
theorem Settled.reply_delivery {s u : State} {p : Port} {r : Reply} (hs : Settled s) (hl : u.link.get p = (s.link.get p).withReply r)
    (hd : u.delivery.get p = s.delivery.get p) : (serveAll u).delivery.get p = s.delivery.get p := by
  have h := servedIn_serveAll p u
  rw [hl, hd] at h
  unfold ServedIn at h
  split at h
  · rename_i hi
    have habove := hs.nothingAboveAck (p := p) hi
    cases hc : choice (serveAll u).keys.transition (serveAll u).scan.frameNumber ((s.link.get p).withReply r) (s.delivery.get p) with
    | none =>
      rw [hc] at h
      exact congrArg Prod.snd h
    | some x =>
      rw [hc] at h
      exact (congrArg Prod.snd h).trans (habove.withReply_delivery hc)
  · exact congrArg Prod.snd h

/-! #### Replies that stand -/

theorem Replied.serveAll {s : State} {p : Port} {r : Reply} (h : Replied s p r) : Replied (serveAll s) p r := by
  rcases serveAll_spec p s with ⟨e, _⟩ | ⟨_, hl, _⟩
  · rw [Replied, e]
    exact h
  · exact hl.replies r h

theorem replied_of_withReply {s : State} {p : Port} {r : Reply} {l : Link} (h : s.link.get p = l.withReply r) : Replied s p r := by
  rw [Replied, h]
  exact Or.inl (List.mem_append_right _ (List.mem_singleton.mpr rfl))

theorem Replied.withReply {s t : State} {p : Port} {r x : Reply} (h : Replied s p r) (ht : t.link.get p = (s.link.get p).withReply x) :
    Replied t p r := by
  rw [Replied, ht]
  exact h.imp (List.mem_append_left _) id

/-- A busy line's units stand when every transmitter is served. -/
theorem serveAll_busy {s : State} {p : Port} (h : lineIdle p s = false) :
    (serveAll s).link.get p = s.link.get p ∧ (serveAll s).delivery.get p = s.delivery.get p := (servedIn_serveAll p s).busy h

theorem composedFrom_serveAll {s u : State} (hk : u.keys = s.keys) (hs : u.scan = s.scan) (p : Port) :
    ComposedFrom s (u.delivery.get p) ((serveAll u).delivery.get p) := by
  rcases serveAll_spec p u with ⟨_, e⟩ | ⟨_, _, h⟩
  · exact Or.inl e
  · rw [hk, hs] at h
    exact h

/-! #### What the read makes -/

theorem getLsbD_keysWhere (t : KeyTable) (f : KeyRec → Bool) (k : Key) : (keysWhere t f).getLsbD k.val = f t.recs[k] := by
  rw [keysWhere, BitVec.getLsbD_ofFnLE, dif_pos k.isLt]

theorem snapshotReadReply (s : State) (x : SnapshotInFlight) : SnapshotReadReply s x (answerTo x.req .ok (readSnapshot x.group s)) :=
  ⟨_, _, _, getLsbD_keysWhere _ _, getLsbD_keysWhere _ _, getLsbD_keysWhere _ _, rfl⟩

/-- The reply that the read of a SNAPSHOT leaves: none when its session has ended (R79). -/
def readReplies (s : State) (p : Port) (x : SnapshotInFlight) : List Reply :=
  if isLive s p x.req.session = true then [answerTo x.req .ok (readSnapshot x.group s)] else []

/-- A Link Unit once these replies have taken held places. -/
def Link.withReplies (rs : List Reply) (l : Link) : Link := { l with held := l.held - rs.length, replies := l.replies ++ rs }

/-- The read of the port's SNAPSHOT in flight has been made, and no other effect but its reply has followed. -/
structure ReadMade (s : State) (p : Port) (t : State) : Prop where
  disp : t.disp = { s.disp with snapshots := s.disp.snapshots.set p none }
  scan : t.scan = s.scan
  keys : t.keys = s.keys
  groups : t.groups = s.groups
  lamps : t.lamps = s.lamps
  mgr : t.mgr = s.mgr
  pins : t.pins = s.pins
  pending : t.pending = s.pending

theorem ReadMade.serveAll {s t : State} {p : Port} (h : ReadMade s p t) : ReadMade s p (serveAll t) := by
  obtain ⟨h1, h2, h3, h4, h5, h6, h7, h8⟩ := h
  exact ⟨by simp [h1], by simp [h2], by simp [h3], by simp [h4], by simp [h5], by simp [h6], by simp [h7], by simp [h8]⟩

section Read

variable {s : State} {p : Port} {x : SnapshotInFlight} (hx : s.disp.snapshots.get p = some x)
include hx

theorem takeSnapshotRead_eq : takeSnapshotRead p s = replyTo x.req .ok (readSnapshot x.group s) (setSnapshot p none s) := by
  simp only [takeSnapshotRead, hx]

theorem readMade : ReadMade s p (takeSnapshotRead p s) := by
  rw [takeSnapshotRead_eq hx]
  exact ⟨by simp [setSnapshot], by simp, by simp, by simp, by simp, by simp, by simp, by simp⟩

theorem takeSnapshotRead_delivery : (takeSnapshotRead p s).delivery = s.delivery := by
  rw [takeSnapshotRead_eq hx, replyTo_delivery, setSnapshot_delivery]

theorem takeSnapshotRead_link_ne (hp : x.req.port = p) {q : Port} (hq : q ≠ p) : (takeSnapshotRead p s).link.get q = s.link.get q := by
  rw [takeSnapshotRead_eq hx, replyTo_link_ne (by rw [hp]; exact hq), setSnapshot_link]

theorem takeSnapshotRead_ended (hp : x.req.port = p) (h : isLive s p x.req.session = false) : takeSnapshotRead p s = setSnapshot p none s := by
  rw [takeSnapshotRead_eq hx]
  refine produce_ended ?_
  rw [hp]
  exact h

theorem takeSnapshotRead_live (hp : x.req.port = p) (h : isLive s p x.req.session = true) (hheld : 0 < (s.link.get p).held) :
    (takeSnapshotRead p s).link.get p = (s.link.get p).withReply (answerTo x.req .ok (readSnapshot x.group s)) := by
  subst hp
  have hlive : replyTo x.req .ok (readSnapshot x.group s) (setSnapshot x.req.port none s) =
      updLink x.req.port (Link.withReply (answerTo x.req .ok (readSnapshot x.group s))) (setSnapshot x.req.port none s) :=
    produce_live (r := answerTo x.req .ok (readSnapshot x.group s)) h hheld
  rw [takeSnapshotRead_eq hx, hlive, updLink_get_same]
  rfl

theorem takeSnapshotRead_link (hp : x.req.port = p) (hheld : 0 < (s.link.get p).held) :
    (takeSnapshotRead p s).link.get p = (s.link.get p).withReplies (readReplies s p x) := by
  cases h : isLive s p x.req.session with
  | true =>
    rw [takeSnapshotRead_live hx hp h hheld, readReplies, if_pos h]
    rfl
  | false =>
    rw [takeSnapshotRead_ended hx hp h, readReplies, if_neg (by rw [h]; nofun), Link.withReplies, List.append_nil]
    rfl

end Read

/-! #### What can follow a read -/

section After

variable {s t : State} {p : Port} (hs : internal s = none) (h : ReadMade s p t)
include hs h

theorem ReadMade.scannerEvent : scannerEvent t = none := by
  have := (internal_eq_none.mp hs).1
  rw [scannerEvent_eq_none] at this ⊢
  rw [h.disp, h.scan]
  exact this

theorem ReadMade.readyRequest_ne {q : Port} (hq : q ≠ p) : readyRequest t q = none := by
  have hno := ownerEvent_eq_none.mp (internal_eq_none.mp hs).2.1 q
  have hready : ∀ a, ownerReady t q a = ownerReady s q a := fun a => by
    cases a with
    | snapshot g => rw [ownerReady, ownerReady, h.disp, PerPort.get_set_ne _ hq]
    | mapKeys es => rw [ownerReady, ownerReady, h.disp]
    | scanSetup su => rw [ownerReady, ownerReady, h.scan]
    | scanControl op => rw [ownerReady, ownerReady, h.scan]
    | close | grant _ | join _ _ | leave _ | lamps _ | status | mapLamps _ | groupSetup _ _ _ | dissolve _ | reset => rfl
  simp only [readyRequest, h.mgr, hready] at hno ⊢
  exact hno

theorem ReadMade.managerEvent : managerEvent t = none := by
  have := (internal_eq_none.mp hs).2.2
  rw [managerEvent_eq_none] at this ⊢
  intro q
  rw [← this q, nextRequest, nextRequest, h.mgr]

/-- Nothing follows a read when no SNAPSHOT of its port waits. -/
theorem ReadMade.internal_none (hno : ∀ (x : Handed) (g : Group), s.mgr.handed.get p = some x → x.ask ≠ .snapshot g) : internal t = none := by
  rw [internal_eq_none]
  refine ⟨h.scannerEvent hs, ownerEvent_eq_none.mpr fun q => ?_, h.managerEvent hs⟩
  by_cases hq : q = p
  · subst hq
    have hown := ownerEvent_eq_none.mp (internal_eq_none.mp hs).2.1 q
    rw [readyRequest, Option.filter_eq_none_iff] at hown ⊢
    intro x hx hr
    rw [h.mgr] at hx
    refine hown x hx ?_
    have hask := fun g => hno x g hx
    cases ha : x.ask with
    | snapshot g => exact absurd ha (hask g)
    | mapKeys es => rwa [ha, ownerReady, h.disp] at hr
    | scanSetup su => rwa [ha, ownerReady, h.scan] at hr
    | scanControl op => rwa [ha, ownerReady, h.scan] at hr
    | close | grant _ | join _ _ | leave _ | lamps _ | status | mapLamps _ | groupSetup _ _ _ | dissolve _ | reset => rfl
  · exact h.readyRequest_ne hs hq

/-- A SNAPSHOT that waited for the read is taken. -/
theorem ReadMade.internal_next {r : Request} {g : Group} (hx : s.mgr.handed.get p = some { req := r, ask := .snapshot g }) (hr : r.port = p)
    (hlive : isLive s p r.session = true) : internal t = some (takeSnapshot r g (setHanded p none t)) := by
  have hready : readyRequest t p = some { req := r, ask := .snapshot g } := by
    rw [readyRequest, h.mgr, hx, Option.filter_some, if_pos]
    rw [ownerReady, h.disp, PerPort.get_set_same]
    rfl
  have hlive' : requestLive (setHanded p none t) r = true := by
    rw [requestLive, hr, isLive_congr (s := s) (by rw [setHanded_sessions, h.mgr])]
    exact hlive
  rw [internal_request (h.scannerEvent hs), requestEvent, ownerEvent_only hready fun q hq => h.readyRequest_ne hs hq, takeByOwner, if_pos hlive']
  rfl

end After

end Sys2Proof.Machine

/-! ### What waited for the read (R81, R151) -/

namespace Sys2Proof.Machine

theorem PortKept.trans {s u t : State} {q : Port} (h1 : PortKept s u q) (h2 : PortKept u t q) : PortKept s t q :=
  ⟨h2.1.trans h1.1, h2.2.trans h1.2⟩

theorem exec_snapshotRead {s t : State} {p : Port} (h : Follows (serveAll (takeSnapshotRead p s)) t) : exec (.snapshotRead p) s = .next t := by
  rw [exec, execSnapshotRead, h.finish]

/-- The port's SNAPSHOT that waited for the read has been taken; the requests queued at the Session Manager are these. -/
structure NextTaken (s : State) (p : Port) (inbox : PerPort (List Queued)) (t : State) : Prop where
  scan : t.scan = s.scan
  keys : t.keys = s.keys
  groups : t.groups = s.groups
  lamps : t.lamps = s.lamps
  mgr : t.mgr = { s.mgr with handed := s.mgr.handed.set p none, inbox := inbox }
  waiting : t.disp.waiting = s.disp.waiting
  snapshots : ∀ q, q ≠ p → t.disp.snapshots.get q = s.disp.snapshots.get q

theorem NextTaken.serveAll {s t : State} {p : Port} {inbox : PerPort (List Queued)} (h : NextTaken s p inbox t) :
    NextTaken s p inbox (serveAll t) := by
  obtain ⟨h1, h2, h3, h4, h5, h6, h7⟩ := h
  exact ⟨by simp [h1], by simp [h2], by simp [h3], by simp [h4], by simp [h5], by simp [h6], by simpa using h7⟩

theorem NextTaken.setInbox {s t : State} {p : Port} {inbox : PerPort (List Queued)} (h : NextTaken s p inbox t) (rs : List Queued) :
    NextTaken s p (inbox.set p rs) (setInbox p rs t) := by
  obtain ⟨h1, h2, h3, h4, h5, h6, h7⟩ := h
  exact ⟨h1, h2, h3, h4, by rw [Machine.setInbox, h5], h6, h7⟩

section

variable {s u : State} {p : Port} {r : Request} {g : Group}

theorem takeSnapshot_allowed (h : snapshotAllowed u r.port g = true) :
    takeSnapshot r g u = setSnapshot r.port (some { req := r, group := g }) (armStep r.port g u) := if_pos h

theorem takeSnapshot_refused (h : snapshotAllowed u r.port g = false) : takeSnapshot r g u = replyTo r .notMember .none u :=
  if_neg (by rw [h]; nofun)

theorem ReadMade.nextTaken (h : ReadMade s p u) (hr : r.port = p) : NextTaken s p s.mgr.inbox (takeSnapshot r g (setHanded p none u)) := by
  have hmgr : (setHanded p none u).mgr = { s.mgr with handed := s.mgr.handed.set p none, inbox := s.mgr.inbox } := by rw [setHanded, h.mgr]
  have hsnap : ∀ q, q ≠ p → (s.disp.snapshots.set p none).get q = s.disp.snapshots.get q := fun q hq => PerPort.get_set_ne _ hq none
  cases ha : snapshotAllowed (setHanded p none u) r.port g with
  | true =>
    rw [takeSnapshot_allowed ha]
    refine ⟨by simp [h.scan], by simp [h.keys], by simp [h.groups], by simp [h.lamps], ?_, by simp [h.disp], fun q hq => ?_⟩
    · rw [setSnapshot_mgr, (armStep_keeps _ _ _).2.2.2.2.2.2.1, hmgr]
    · rw [hr, setSnapshot_get_ne hq, (armStep_keeps _ _ _).2.2.2.1, setHanded_disp, h.disp]
      exact hsnap q hq
  | false =>
    rw [takeSnapshot_refused ha]
    refine ⟨by simp [h.scan], by simp [h.keys], by simp [h.groups], by simp [h.lamps], by rw [replyTo_mgr, hmgr], by simp [h.disp], fun q hq => ?_⟩
    rw [replyTo_disp, setHanded_disp, h.disp]
    exact hsnap q hq

end

section Quiet

variable {s t : State} {p : Port} {inbox : PerPort (List Queued)} (hs : internal s = none) (h : NextTaken s p inbox t)
include hs h

theorem NextTaken.scannerEvent : scannerEvent t = none := by
  have := (internal_eq_none.mp hs).1
  rw [scannerEvent_eq_none] at this ⊢
  rw [h.waiting, h.scan]
  exact this

theorem NextTaken.ownerEvent : ownerEvent t = none := by
  rw [ownerEvent_eq_none]
  intro q
  by_cases hq : q = p
  · subst hq
    rw [readyRequest, h.mgr, PerPort.get_set_same]
    rfl
  · have hno := ownerEvent_eq_none.mp (internal_eq_none.mp hs).2.1 q
    have hready : ∀ a, ownerReady t q a = ownerReady s q a := fun a => by
      cases a with
      | snapshot g => rw [ownerReady, ownerReady, h.snapshots q hq]
      | mapKeys es => rw [ownerReady, ownerReady, h.waiting]
      | scanSetup su => rw [ownerReady, ownerReady, h.scan]
      | scanControl op => rw [ownerReady, ownerReady, h.scan]
      | close | grant _ | join _ _ | leave _ | lamps _ | status | mapLamps _ | groupSetup _ _ _ | dissolve _ | reset => rfl
    simp only [readyRequest, h.mgr, PerPort.get_set_ne _ hq, hready] at hno ⊢
    exact hno

theorem NextTaken.nextRequest_ne (hi : ∀ q, q ≠ p → inbox.get q = s.mgr.inbox.get q) {q : Port} (hq : q ≠ p) : nextRequest t q = none := by
  have hno := managerEvent_eq_none.mp (internal_eq_none.mp hs).2.2 q
  rw [← hno, nextRequest, nextRequest, h.mgr, PerPort.get_set_ne _ hq, hi q hq]

/-- Nothing more follows with no request of the port queued. -/
theorem NextTaken.internal_none (hi : ∀ q, q ≠ p → inbox.get q = s.mgr.inbox.get q) (he : inbox.get p = []) : internal t = none := by
  rw [internal_eq_none, managerEvent_eq_none]
  refine ⟨h.scannerEvent hs, h.ownerEvent hs, fun q => ?_⟩
  by_cases hq : q = p
  · subst hq
    rw [nextRequest, h.mgr, he]
    split <;> trivial
  · exact h.nextRequest_ne hs hi hq

end Quiet

/-- One port alone has a request that the Session Manager can take. -/
theorem managerEvent_only {s : State} {p : Port} {x : Queued × List Queued} (hx : nextRequest s p = some x)
    (ho : ∀ q, q ≠ p → nextRequest s q = none) : managerEvent s = some (takeRequest x.1 (setInbox p x.2 s)) := by
  simp only [managerEvent, List.findSome?_cons, List.findSome?_nil]
  cases p with
  | p0 => rw [hx]; rfl
  | p1 => rw [ho .p0 nofun, hx]; rfl
  | p2 => rw [ho .p0 nofun, ho .p1 nofun, hx]; rfl

/-- The one request queued behind the port's SNAPSHOT is taken after it. -/
theorem NextTaken.internal_next {s t : State} {p : Port} {w : Queued} (hs : internal s = none) (h : NextTaken s p s.mgr.inbox t)
    (hi : s.mgr.inbox.get p = [w]) : internal t = some (takeRequest w (Machine.setInbox p [] t)) := by
  have hnext : nextRequest t p = some (w, []) := by
    rw [nextRequest, h.mgr, PerPort.get_set_same, hi]
  rw [internal_request (h.scannerEvent hs), requestEvent, h.ownerEvent hs,
    managerEvent_only hnext fun q hq => h.nextRequest_ne hs (fun _ _ => rfl) hq]
  rfl

end Sys2Proof.Machine

/-! ### SNAPSHOT_READ, and the SNAPSHOT that waited for it -/

namespace Sys2Proof.Machine

section Units

variable {s : State} {r : Request} {g : Group}

theorem takeSnapshot_allowed_units (h : snapshotAllowed s r.port g = true) (ho : isOpen s r.port = true) :
    (takeSnapshot r g s).link = s.link ∧ ∀ q, (takeSnapshot r g s).delivery.get q =
      if q = r.port ∧ memberMode s g r.port = some .latched then (s.delivery.get q).takeArm g else s.delivery.get q := by
  rw [takeSnapshot_allowed h]
  exact ⟨by simp, fun q => by rw [setSnapshot_delivery, armStep_delivery ho]⟩

theorem takeSnapshot_refused_units (h : snapshotAllowed s r.port g = false) (hlive : isLive s r.port r.session = true)
    (hheld : 0 < (s.link.get r.port).held) :
    (takeSnapshot r g s).link.get r.port = (s.link.get r.port).withReply (answerTo r .notMember .none) ∧
      (∀ q, q ≠ r.port → (takeSnapshot r g s).link.get q = s.link.get q) ∧ (takeSnapshot r g s).delivery = s.delivery := by
  have hp : takeSnapshot r g s = updLink r.port (Link.withReply (answerTo r .notMember .none)) s :=
    (takeSnapshot_refused h).trans (produce_live (r := answerTo r .notMember .none) hlive hheld)
  rw [hp]
  exact ⟨updLink_get_same _ _ _, fun q hq => updLink_get_ne hq _ _, rfl⟩

/-- On the request's port: the line stands, one place is given up at most, and the credits stand; on the other ports nothing changes. -/
theorem takeSnapshot_units (hlive : isLive s r.port r.session = true) (hheld : 0 < (s.link.get r.port).held) :
    ((takeSnapshot r g s).link.get r.port).line = (s.link.get r.port).line ∧
      (s.link.get r.port).held ≤ ((takeSnapshot r g s).link.get r.port).held + 1 ∧
      ((takeSnapshot r g s).delivery.get r.port).credits = (s.delivery.get r.port).credits ∧
      ∀ q, q ≠ r.port → (takeSnapshot r g s).link.get q = s.link.get q ∧ (takeSnapshot r g s).delivery.get q = s.delivery.get q := by
  cases ha : snapshotAllowed s r.port g with
  | true =>
    obtain ⟨hl, hd⟩ := takeSnapshot_allowed_units ha (Bool.and_eq_true _ _ ▸ hlive).1
    rw [hl]
    refine ⟨rfl, Nat.le_succ _, ?_, fun q hq => ⟨rfl, by rw [hd, if_neg fun e => hq e.1]⟩⟩
    rw [hd]
    split <;> rfl
  | false =>
    obtain ⟨hl, hn, hd⟩ := takeSnapshot_refused_units ha hlive hheld
    rw [hl, hd]
    exact ⟨rfl, by simp only [Link.withReply]; omega, rfl, fun q hq => ⟨hn q hq, rfl⟩⟩

end Units

/-! #### The units after the read -/

section AfterRead

variable {s : State} {p : Port} {x : SnapshotInFlight} (hx : s.disp.snapshots.get p = some x) (hp : x.req.port = p)
include hx hp

/-- The other ports' units stand through a read. -/
theorem portKept_read {q : Port} (hs : Served s) (hq : q ≠ p) : PortKept s (serveAll (takeSnapshotRead p s)) q :=
  hs.portKept_serveAll (takeSnapshotRead_link_ne hx hp hq) (by rw [takeSnapshotRead_delivery hx])

omit hx hp in
theorem readReplies_length : (readReplies s p x).length ≤ 1 := by
  unfold readReplies
  split
  · exact le_rfl
  · exact Nat.zero_le _

/-- The places held after a read. -/
theorem held_read (hheld : 0 < (s.link.get p).held) :
    ((serveAll (takeSnapshotRead p s)).link.get p).held = (s.link.get p).held - (readReplies s p x).length := by
  rw [serveAll_held, takeSnapshotRead_link hx hp hheld, Link.withReplies]

/-- On a line that was SENDING a read leaves the replies it makes and nothing else. -/
theorem busy_read (hheld : 0 < (s.link.get p).held) (hb : lineIdle p s = false) :
    (serveAll (takeSnapshotRead p s)).link.get p = (s.link.get p).withReplies (readReplies s p x) ∧
      (serveAll (takeSnapshotRead p s)).delivery.get p = s.delivery.get p := by
  have hl := takeSnapshotRead_link hx hp hheld
  have hb' : lineIdle p (takeSnapshotRead p s) = false := by
    rw [lineIdle, hl]
    exact hb
  rw [(serveAll_busy hb').1, (serveAll_busy hb').2, hl, takeSnapshotRead_delivery hx]
  exact ⟨rfl, rfl⟩

end AfterRead

/-- The read has been made, and the port's SNAPSHOT that waited for it is being taken. -/
def readTaken (p : Port) (s : State) : State := setHanded p none (serveAll (takeSnapshotRead p s))

section Next

variable {s : State} {x : SnapshotInFlight} {r : Request} {g : Group} (hx : s.disp.snapshots.get r.port = some x) (hp : x.req.port = r.port)
  (hlive : isLive s r.port r.session = true) (hheld : 2 ≤ (s.link.get r.port).held)
include hx

theorem readTaken_groups_sessions : (readTaken r.port s).groups = s.groups ∧ (readTaken r.port s).mgr.sessions = s.mgr.sessions :=
  ⟨(readMade hx).serveAll.groups, (setHanded_sessions _ _ _).trans (congrArg Manager.sessions (readMade hx).serveAll.mgr)⟩

theorem readTaken_allowed : snapshotAllowed (readTaken r.port s) r.port g = snapshotAllowed s r.port g :=
  snapshotAllowed_congr (readTaken_groups_sessions hx).2 (readTaken_groups_sessions hx).1 _ _

theorem readTaken_mode : memberMode (readTaken r.port s) g r.port = memberMode s g r.port := by
  simp only [memberMode, (readTaken_groups_sessions hx).1]

include hlive in
theorem readTaken_live : isLive (readTaken r.port s) r.port r.session = true := by
  rw [isLive_congr (readTaken_groups_sessions hx).2]
  exact hlive

include hlive in
theorem readTaken_open : isOpen (readTaken r.port s) r.port = true := by
  rw [isOpen_congr (readTaken_groups_sessions hx).2]
  exact (Bool.and_eq_true _ _ ▸ hlive).1

include hp hheld in
theorem readTaken_held :
    ((readTaken r.port s).link.get r.port).held = (s.link.get r.port).held - (readReplies s r.port x).length ∧
      0 < ((readTaken r.port s).link.get r.port).held := by
  have hlen := readReplies_length (s := s) (p := r.port) (x := x)
  have hh : ((readTaken r.port s).link.get r.port).held = (s.link.get r.port).held - (readReplies s r.port x).length :=
    held_read hx hp (by omega)
  exact ⟨hh, by omega⟩

/-- What follows the taking of the SNAPSHOT that waited ends the step. -/
theorem exec_nextSnapshot (hs : Settled s) (hh : s.mgr.handed.get r.port = some { req := r, ask := .snapshot g })
    (hlive : isLive s r.port r.session = true) {t : State} (h : Follows (serveAll (takeSnapshot r g (readTaken r.port s))) t) :
    exec (.snapshotRead r.port) s = .next t :=
  exec_snapshotRead (.step ((readMade hx).serveAll.internal_next hs.1 hh rfl hlive) h)

include hp hlive hheld

theorem nextSnapshot_portKept (hs : Settled s) {q : Port} (hq : q ≠ r.port) :
    PortKept s (serveAll (takeSnapshot r g (readTaken r.port s))) q := by
  obtain ⟨_, _, _, hothers⟩ := takeSnapshot_units (g := g) (readTaken_live hx hlive) (readTaken_held hx hp hheld).2
  exact (portKept_read hx hp hs.2 hq).trans ((served_serveAll _).portKept_serveAll (hothers q hq).1 (hothers q hq).2)

/-- The reply of the read stands on. -/
theorem nextSnapshot_replied (hl : isLive s r.port x.req.session = true) :
    Replied (serveAll (takeSnapshot r g (readTaken r.port s))) r.port (answerTo x.req .ok (readSnapshot x.group s)) := by
  have hreplied : Replied (readTaken r.port s) r.port (answerTo x.req .ok (readSnapshot x.group s)) :=
    (replied_of_withReply (takeSnapshotRead_live hx hp hl (by omega))).serveAll
  refine Replied.serveAll ?_
  cases ha : snapshotAllowed (readTaken r.port s) r.port g with
  | true =>
    rw [Replied, (takeSnapshot_allowed_units ha (readTaken_open hx hlive)).1]
    exact hreplied
  | false => exact hreplied.withReply (takeSnapshot_refused_units ha (readTaken_live hx hlive) (readTaken_held hx hp hheld).2).1

/-- A line that was SENDING is SENDING still. -/
theorem nextSnapshot_busy (hb : lineIdle r.port s = false) :
    lineIdle r.port (takeSnapshot r g (readTaken r.port s)) = false ∧
      (readTaken r.port s).link.get r.port = (s.link.get r.port).withReplies (readReplies s r.port x) ∧
      (readTaken r.port s).delivery.get r.port = s.delivery.get r.port := by
  obtain ⟨hl, hd⟩ := busy_read hx hp (by omega) hb
  refine ⟨?_, hl, hd⟩
  rw [lineIdle, (takeSnapshot_units (g := g) (readTaken_live hx hlive) (readTaken_held hx hp hheld).2).1]
  exact (congrArg (fun l : Link => l.line.isIdle) hl).trans hb

/-- A SNAPSHOT that waited for the read and is allowed (R76, R77). -/
theorem nextSnapshot_allowed (ha : snapshotAllowed s r.port g = true) :
    (serveAll (takeSnapshot r g (readTaken r.port s))).disp =
        { s.disp with snapshots := s.disp.snapshots.set r.port (some { req := r, group := g }) } ∧
      ((serveAll (takeSnapshot r g (readTaken r.port s))).link.get r.port).held =
        (s.link.get r.port).held - (readReplies s r.port x).length ∧
      (lineIdle r.port s = false → (serveAll (takeSnapshot r g (readTaken r.port s))).link.get r.port =
        (s.link.get r.port).withReplies (readReplies s r.port x)) ∧
      ∃ d : Delivery, ComposedFrom s (s.delivery.get r.port) d ∧
        ComposedFrom s (if memberMode s g r.port = some .latched then d.takeArm g else d)
          ((serveAll (takeSnapshot r g (readTaken r.port s))).delivery.get r.port) := by
  have ha' : snapshotAllowed (readTaken r.port s) r.port g = true := (readTaken_allowed hx).trans ha
  obtain ⟨hlink, hdel⟩ := takeSnapshot_allowed_units ha' (readTaken_open hx hlive)
  have hmade := (readMade hx).serveAll
  have hnext := hmade.nextTaken (r := r) (g := g) rfl
  refine ⟨?_, ?_, fun hb => ?_, (readTaken r.port s).delivery.get r.port, ?_, ?_⟩
  · rw [serveAll_disp, takeSnapshot_allowed ha', setSnapshot, (armStep_keeps _ _ _).2.2.2.1, readTaken, setHanded_disp, hmade.disp]
    simp
  · rw [serveAll_held, hlink, (readTaken_held hx hp hheld).1]
  · obtain ⟨hidle, hl, _⟩ := nextSnapshot_busy (g := g) hx hp hlive hheld hb
    rw [(serveAll_busy hidle).1, hlink, hl]
  · have hc := composedFrom_serveAll (readMade hx).keys (readMade hx).scan r.port
    rwa [takeSnapshotRead_delivery hx] at hc
  · have hc := composedFrom_serveAll hnext.keys hnext.scan r.port
    rw [← readTaken, hdel, readTaken_mode hx] at hc
    by_cases hm : memberMode s g r.port = some .latched
    · rw [if_pos ⟨rfl, hm⟩] at hc
      rwa [if_pos hm]
    · rw [if_neg fun e => hm e.2] at hc
      rwa [if_neg hm]

/-- A SNAPSHOT that waited for the read and is refused (R76). -/
theorem nextSnapshot_refused (ha : snapshotAllowed s r.port g = false) :
    (serveAll (takeSnapshot r g (readTaken r.port s))).disp = { s.disp with snapshots := s.disp.snapshots.set r.port none } ∧
      Replied (serveAll (takeSnapshot r g (readTaken r.port s))) r.port (answerTo r .notMember .none) ∧
      ((serveAll (takeSnapshot r g (readTaken r.port s))).link.get r.port).held =
        (s.link.get r.port).held - ((readReplies s r.port x).length + 1) ∧
      (lineIdle r.port s = false → (serveAll (takeSnapshot r g (readTaken r.port s))).link.get r.port =
        ((s.link.get r.port).withReplies (readReplies s r.port x)).withReply (answerTo r .notMember .none)) := by
  have ha' : snapshotAllowed (readTaken r.port s) r.port g = false := (readTaken_allowed hx).trans ha
  obtain ⟨hheld', hpos⟩ := readTaken_held hx hp hheld
  obtain ⟨hlink, _⟩ := takeSnapshot_refused_units ha' (readTaken_live hx hlive) hpos
  refine ⟨?_, (replied_of_withReply hlink).serveAll, ?_, fun hb => ?_⟩
  · rw [serveAll_disp, takeSnapshot_refused ha', replyTo_disp]
    exact (readMade hx).serveAll.disp
  · rw [serveAll_held, hlink, Link.withReply, hheld', Nat.sub_sub]
  · obtain ⟨hidle, hl, _⟩ := nextSnapshot_busy (g := g) hx hp hlive hheld hb
    rw [(serveAll_busy hidle).1, hlink, hl]

end Next

/-- Settles O30. -/
theorem snapshotRead : Obligations.SnapshotRead := by
  refine ⟨fun s p hx hs => ?_, fun s p x hx hp hs hno => ?_, ?_⟩
  · have hread : takeSnapshotRead p s = s := by simp only [takeSnapshotRead, hx]
    rw [exec, execSnapshotRead, hread, finish_settled hs]
  · have hmade := (readMade hx).serveAll
    obtain ⟨h1, h2, h3, h4, h5, h6, h7, h8⟩ := id hmade
    refine ⟨_, exec_snapshotRead (.done (hmade.internal_none hs.1 hno)), h1, h2, h3, h4, h5, h6, h7, h8,
      fun q hq => portKept_read hx hp hs.2 hq, fun hdead => ?_, fun hlive hheld => ?_⟩
    · rw [takeSnapshotRead_ended hx hp hdead]
      exact portKept_of_serveAll hs rfl rfl
    · have hl := takeSnapshotRead_live hx hp hlive hheld
      have hd : (takeSnapshotRead p s).delivery.get p = s.delivery.get p := by rw [takeSnapshotRead_delivery hx]
      refine ⟨hs.reply_delivery hl hd, _, snapshotReadReply s x, (replied_of_withReply hl).serveAll, ?_⟩
      have hserved := servedIn_serveAll p (takeSnapshotRead p s)
      rw [hl, hd] at hserved
      exact hserved
  · intro s p x r g hx hp hs hh hr hi hlive hheld l refused
    subst hr
    have hnext := ((readMade hx).serveAll.nextTaken (r := r) (g := g) rfl).serveAll
    refine ⟨_, readReplies s r.port x, exec_nextSnapshot hx hs hh hlive (.done (hnext.internal_none hs.1 (fun _ _ => rfl) hi)),
      hnext.mgr, hnext.scan, hnext.keys, hnext.groups, hnext.lamps, fun q hq => nextSnapshot_portKept hx hp hlive hheld hs hq,
      fun hdead => if_neg (by rw [hdead]; nofun),
      fun hl => ⟨_, if_pos hl, snapshotReadReply s x, nextSnapshot_replied hx hp hlive hheld hl⟩,
      fun hallow => nextSnapshot_allowed hx hp hlive hheld (snapshotAllowed_iff.mpr hallow), fun hadmin hm => ?_⟩
    have ha : snapshotAllowed s r.port g = false := by
      rw [← Bool.not_eq_true, snapshotAllowed_iff, hm]
      simp [hadmin]
    obtain ⟨h1, h2, h3, h4⟩ := nextSnapshot_refused hx hp hlive hheld ha
    refine ⟨h1, h2, h3, fun hb => (h4 hb).trans ?_⟩
    simp only [Link.withReply, Link.withReplies, Nat.sub_sub]
    rfl

end Sys2Proof.Machine

/-! ### The request queued behind a SNAPSHOT that waited for the read (R91, R150, R153; log 30) -/

namespace Sys2Proof.Machine

/-- A GRANT answered: the reply carries the credits it left (R91). -/
theorem takeGrant_answered {s : State} {r : Request} (hlive : isLive s r.port r.session = true) (hheld : 0 < (s.link.get r.port).held) (n : Nat) :
    Replied (serveAll (takeGrant r n s)) r.port (answerTo r .ok (.credits (grantedCredits (s.delivery.get r.port).credits n))) ∧
      (lineIdle r.port s = false →
        ((serveAll (takeGrant r n s)).delivery.get r.port).credits = grantedCredits (s.delivery.get r.port).credits n) := by
  have hcredits : ((updDelivery r.port (Delivery.takeGrant n) s).delivery.get r.port).credits = grantedCredits (s.delivery.get r.port).credits n := by
    rw [updDelivery_get_same]
    rfl
  simp only [takeGrant, hcredits]
  refine ⟨replied_replyTo ?_ ?_ _ _, fun hb => ?_⟩
  · rw [isLive_congr (s := s) (by simp)]
    exact hlive
  · rw [raceChoice_held]
    exact hheld
  · have hb' : lineIdle r.port (updDelivery r.port (Delivery.takeGrant n) s) = false := hb
    rw [raceChoice_busy hb', (serveAll_busy ((lineIdle_replyTo _ _ _ _ _).trans hb')).2, replyTo_delivery, hcredits]

/-- The read made, the SNAPSHOT that waited for it taken, and the request queued behind that being taken. -/
def queuedTaken (r : Request) (g : Group) (s : State) : State := setInbox r.port [] (serveAll (takeSnapshot r g (readTaken r.port s)))

section Queued

variable {s : State} {x : SnapshotInFlight} {r : Request} {g : Group} (hx : s.disp.snapshots.get r.port = some x)
include hx

theorem queuedTaken_next : NextTaken s r.port (s.mgr.inbox.set r.port []) (queuedTaken r g s) :=
  ((readMade hx).serveAll.nextTaken (r := r) (g := g) rfl).serveAll.setInbox []

theorem queuedTaken_internal (hs : Settled s) : internal (queuedTaken r g s) = none :=
  (queuedTaken_next hx).internal_none hs.1 (fun _ hq => PerPort.get_set_ne _ hq []) (PerPort.get_set_same _ _ _)

theorem queuedTaken_live (n : Nat) : isLive (queuedTaken r g s) r.port n = isLive s r.port n :=
  isLive_congr (by rw [(queuedTaken_next hx).mgr]) _ _

/-- A place is left for the reply, and on a line that was SENDING the line and the credits stand. -/
theorem queuedTaken_units (hp : x.req.port = r.port) (hlive : isLive s r.port r.session = true) (hheld : 3 ≤ (s.link.get r.port).held) :
    0 < ((queuedTaken r g s).link.get r.port).held ∧
      (lineIdle r.port s = false → lineIdle r.port (queuedTaken r g s) = false ∧
        ((queuedTaken r g s).delivery.get r.port).credits = (s.delivery.get r.port).credits) := by
  obtain ⟨hread, hpos⟩ := readTaken_held hx hp (by omega)
  obtain ⟨_, hplace, hcredits, _⟩ := takeSnapshot_units (g := g) (readTaken_live hx hlive) hpos
  have hlen := readReplies_length (s := s) (p := r.port) (x := x)
  refine ⟨?_, fun hb => ?_⟩
  · rw [queuedTaken, setInbox_link, serveAll_held]
    omega
  · obtain ⟨hidle, _, hdel⟩ := nextSnapshot_busy (g := g) hx hp hlive (by omega) hb
    obtain ⟨e1, e2⟩ := serveAll_busy hidle
    refine ⟨?_, ?_⟩
    · rw [lineIdle, queuedTaken, setInbox_link, e1]
      exact hidle
    · rw [queuedTaken, setInbox_delivery, e2, hcredits, hdel]

/-- The request queued behind the SNAPSHOT ends the step. -/
theorem exec_queued {w : Queued} (hs : Settled s) (hh : s.mgr.handed.get r.port = some { req := r, ask := .snapshot g })
    (hlive : isLive s r.port r.session = true) (hi : s.mgr.inbox.get r.port = [w])
    (hquiet : internal (takeRequest w (queuedTaken r g s)) = none) :
    exec (.snapshotRead r.port) s = .next (serveAll (takeRequest w (queuedTaken r g s))) :=
  exec_nextSnapshot hx hs hh hlive (.step (((readMade hx).serveAll.nextTaken rfl).serveAll.internal_next hs.1 hi)
    (.done (internal_serveAll_none hquiet)))

end Queued

/-- Settles O39. -/
theorem resetRequest : Obligations.ResetRequest := by
  refine ⟨resetRequest_taken, ?_⟩
  intro s p x r g w n hx hp hs hh hr hi hwp hdec hlive hwlive hheld answer
  subst hr
  have hnext := queuedTaken_next (r := r) (g := g) hx
  have hquiet := queuedTaken_internal (r := r) (g := g) hx hs
  obtain ⟨hpos, hbusy⟩ := queuedTaken_units (r := r) (g := g) hx hp hlive hheld
  have hlive' : isLive (queuedTaken r g s) w.req.port w.req.session = true := by
    rw [hwp, queuedTaken_live hx]
    exact hwlive
  have hpos' : 0 < ((queuedTaken r g s).link.get w.req.port).held := by
    rw [hwp]
    exact hpos
  have hreset : (queuedTaken r g s).mgr.resetInFlight = s.mgr.resetInFlight := by rw [hnext.mgr]
  cases hrefused : resetRefused w (queuedTaken r g s) with
  | true =>
    obtain ⟨hflight, hpassed⟩ : s.mgr.resetInFlight.isSome = true ∧ w.passed = false := by simpa [resetRefused, hreset] using hrefused
    have htake := takeRequest_resetting hlive' hrefused
    have hq : internal (takeRequest w (queuedTaken r g s)) = none := by
      rw [htake]
      exact internal_none_congr (by simp) (by simp) (by simp) (by simp) (by simp) hquiet
    refine ⟨_, exec_queued hx hs hh hlive hi hq, ?_, fun _ _ => ⟨?_, fun hb => ?_⟩, fun hcase => ?_⟩
    · rw [serveAll_mgr, htake, replyTo_mgr]
      exact hnext.mgr
    · rw [htake, ← hwp]
      exact replied_replyTo hlive' hpos' _ _
    · rw [htake, (serveAll_busy ((lineIdle_replyTo _ _ _ _ _).trans (hbusy hb).1)).2, replyTo_delivery, (hbusy hb).2]
    · rcases hcase with e | e
      · rw [e] at hflight
        cases hflight
      · rw [e] at hpassed
        cases hpassed
  | false =>
    have hrole : roleRefused (queuedTaken r g s) w.req.port (.grant n) = false := rfl
    have htake : takeRequest w (queuedTaken r g s) = takeGrant w.req n (queuedTaken r g s) :=
      (takeRequest_checked hlive' hrefused hdec hrole).trans (handOn_ready hlive' rfl)
    have hq : internal (takeRequest w (queuedTaken r g s)) = none := by
      rw [htake]
      exact internal_carryOut (r := w.req) (a := .grant n) hquiet rfl
    obtain ⟨hreply, hcredits⟩ := takeGrant_answered hlive' hpos' n
    rw [hwp] at hreply hcredits
    refine ⟨_, exec_queued hx hs hh hlive hi hq, ?_, fun hflight hpassed => ?_, fun _ => ⟨_, by rw [htake]; exact hreply, fun hn => ?_, fun hn hb => ?_,
      fun hb => ?_⟩⟩
    · rw [serveAll_mgr, htake, takeGrant, replyTo_mgr, raceChoice_mgr]
      exact hnext.mgr
    · simp [resetRefused, hreset, hflight, hpassed] at hrefused
    · simp only [grantedCredits, hn, if_true]
    · rw [(hbusy hb).2, grantedCredits, if_neg hn]
      rfl
    · rw [htake]
      exact hcredits (hbusy hb).1

end Sys2Proof.Machine

/-! ### Requests that wait (R38, R62, R81, R118, R151) -/

namespace Sys2Proof.Machine

/-- A request that its owner cannot take yet waits, and nothing follows. -/
theorem internal_setHanded_waits {s : State} {p : Port} {x : Handed} (h : internal s = none) (hr : ownerReady s p x.ask = false) :
    internal (setHanded p (some x) s) = none := by
  rw [internal_eq_none, scannerEvent_eq_none, ownerEvent_eq_none, managerEvent_eq_none] at h ⊢
  obtain ⟨h1, h2, h3⟩ := h
  have hready : ∀ q a, ownerReady (setHanded p (some x) s) q a = ownerReady s q a :=
    ownerReady_congr (s := s) (t := setHanded p (some x) s) rfl rfl
  refine ⟨h1, fun q => ?_, fun q => ?_⟩
  · by_cases hq : q = p
    · subst hq
      rw [readyRequest, setHanded_handed_same, Option.filter_eq_none_iff]
      rintro y hy
      cases hy
      rw [hready, hr]
      nofun
    · rw [← h2 q]
      simp only [readyRequest, setHanded_handed_ne hq, hready]
  · by_cases hq : q = p
    · subst hq
      rw [nextRequest, setHanded_handed_same]
    · rw [← h3 q, nextRequest, nextRequest, setHanded_handed_ne hq]
      rfl

/-- A request queued behind one that waits for its owner waits, and nothing follows. -/
theorem internal_setInbox_waits {s : State} {p : Port} {x : Handed} (h : internal s = none) (hx : s.mgr.handed.get p = some x)
    (rs : List Queued) : internal (setInbox p rs s) = none := by
  rw [internal_eq_none, scannerEvent_eq_none, ownerEvent_eq_none, managerEvent_eq_none] at h ⊢
  obtain ⟨h1, h2, h3⟩ := h
  refine ⟨h1, fun q => ?_, fun q => ?_⟩
  · rw [← h2 q]
    exact readyRequest_congr (s := s) (t := setInbox p rs s) rfl rfl rfl q
  · by_cases hq : q = p
    · subst hq
      rw [nextRequest, setInbox_handed, hx]
    · rw [← h3 q, nextRequest, nextRequest, setInbox_handed, setInbox_inbox_ne hq]

/-- A request accepted whose answer waits: what its acceptance changes, and the change of the Session Manager's lists. -/
theorem accepted_waits {s s' c : State} {p : Port} {seq a : Byte} (hs : Settled s) (hl : c.link = (beforeOwner p seq a s).link)
    (hd : c.delivery = (beforeOwner p seq a s).delivery) (hp : SamePanel s c) (hm : c.mgr = s'.mgr)
    (hs' : SamePanel s s' ∧ s'.link = s.link ∧ s'.delivery = s.delivery) :
    AcceptedOn s (serveAll c) p seq a ∧ NothingElse s' (serveAll c) p := by
  have hb := ownedUnits_beforeOwner p seq a s
  have ho : OwnedUnits s c p seq a id := ⟨by rw [hl]; exact hb.link, by rw [hd]; exact hb.delivery, fun q hq => by rw [hl]; exact hb.others q hq⟩
  obtain ⟨hacc, hcomp, hserved⟩ := ho.waits
  obtain ⟨⟨p1, p2, p3, p4, p5, p6, p7⟩, hl', hd'⟩ := hs'
  obtain ⟨c1, c2, c3, c4, c5, c6, c7⟩ := hp
  refine ⟨hacc, nothingElse_of hs hl' hd' (by rw [p2]) (by rw [p1]) ⟨?_, ?_, ?_, ?_, ?_, ?_, ?_⟩ (by rw [serveAll_mgr, hm])
    (fun q hq => by rw [hd]; exact beforeOwner_delivery_ne hq seq a s) (ho.delivered hcomp) hserved⟩
  · rw [serveAll_scan, c1, p1]
  · rw [serveAll_keys, c2, p2]
  · rw [serveAll_groups, c3, p3]
  · rw [serveAll_disp, c4, p4]
  · rw [serveAll_lamps, c5, p5]
  · rw [serveAll_pins, c6, p6]
  · rw [serveAll_pending, c7, p7]

/-- A checked request that its owner cannot take yet. -/
theorem handed_request {s : State} {p : Port} {i : Instr} {f : RxFrame} {ask : Ask} (hr : Ready s p f.seq) (hi : i.frame? = some (p, f))
    (hd : decodeRequest f.typ f.payload = .ok ask) (hrole : ask.adminOnly = true → isAdmin s p) (hready : ownerReady s p ask = false) :
    exec i s = .next (serveAll (setHanded p (some { req := requestOf s p f, ask := ask }) (beforeOwner p f.seq f.ack s))) := by
  have hready' : ownerReady (beforeOwner p f.seq f.ack s) p ask = false := by
    rw [ownerReady_congr (s := s) (by simp) (by simp)]
    exact hready
  exact checked_request hr hi hd hrole (handOn_waits (x := { req := requestOf s p f, ask := ask }) hready')
    (internal_setHanded_waits (internal_beforeOwner hr.1.1.1 p f.seq f.ack) hready')

theorem takeRequestFrame_accepted {s : State} {p : Port} {f : RxFrame} (h : isOpen s p = true) (hseq : f.seq = (s.link.get p).lastAccepted + 1)
    (hpl : (s.link.get p).places < 4) : takeRequestFrame p f s = finishRequest p (acceptRequest p f s) := by
  have hv : verdict s p f.seq = .accepted := (if_pos hseq).trans (if_pos hpl)
  simp only [takeRequestFrame, open_state h, hv]

/-- A request accepted behind an earlier one of its port that waits. -/
theorem queued_request {s : State} {p : Port} {i : Instr} {f : RxFrame} {x : Handed} (hs : Settled s) (ho : isOpen s p = true)
    (hseq : f.seq = (s.link.get p).lastAccepted + 1) (hpl : (s.link.get p).places < 4) (hx : s.mgr.handed.get p = some x)
    (hack : ackEndsReset p f.ack s = false) (hi : i.frame? = some (p, f)) (hta : f.typ ≠ typeAck) (hto : f.typ ≠ typeOpen) :
    exec i s = .next (serveAll (setInbox p (s.mgr.inbox.get p ++ [arrived s p f]) (beforeOwner p f.seq f.ack s))) := by
  obtain ⟨hlast, _, _, _, hheld, hreplies, _⟩ := Link.readAck_keeps f.ack (s.link.get p)
  have hframe : takeRequestFrame p f (updLink p (Link.readAck f.ack) s) = finishRequest p (acceptRequest p f (updLink p (Link.readAck f.ack) s)) := by
    refine takeRequestFrame_accepted ho ?_ ?_
    · rw [updLink_get_same, hlast]
      exact hseq
    · rw [updLink_get_same, Link.places, hheld, hreplies]
      exact hpl
  have hacc : acceptRequest p f (updLink p (Link.readAck f.ack) s) =
      setInbox p (s.mgr.inbox.get p ++ [arrived s p f]) (updLink p (fun l => (l.readAck f.ack).accept f.seq) s) := by
    simp only [acceptRequest, updLink_updLink]
    rfl
  have hquiet : internal (setInbox p (s.mgr.inbox.get p ++ [arrived s p f]) (beforeOwner p f.seq f.ack s)) = none :=
    internal_setInbox_waits (x := x) (internal_beforeOwner hs.1 p f.seq f.ack) (by rw [beforeOwner_mgr, hx]) _
  have hrace : raceChoice p (setInbox p (s.mgr.inbox.get p ++ [arrived s p f]) (updLink p (fun l => (l.readAck f.ack).accept f.seq) s)) =
      setInbox p (s.mgr.inbox.get p ++ [arrived s p f]) (beforeOwner p f.seq f.ack s) := raceChoice_setInbox _ _ _ _
  rw [exec_of_frame hi, takeGoodFrame_request hack hta hto, takeAckByte_open ho, hframe, hacc, finishRequest, hrace]
  simp only [settle_none hquiet]

end Sys2Proof.Machine

/-! ### A MAP KEYS that waits, beside a scan frame's completion (R38, R41, R62; log 6) -/

namespace Sys2Proof.Machine

/-! #### The count of meetings -/

/-- The count of meetings moved. -/
def setRaces (n : Nat) (s : State) : State := { s with races := n }

theorem serve_setRaces (p : Port) (n : Nat) (s : State) : serve p (setRaces n s) = setRaces n (serve p s) := by
  have hc : chooseFrame p (setRaces n s) = (chooseFrame p s).map (setRaces n) := by
    unfold chooseFrame
    simp only [Option.map_map]
    rfl
  have hl : lineIdle p (setRaces n s) = lineIdle p s := rfl
  unfold serve
  rw [hc, hl]
  cases lineIdle p s with
  | false => rfl
  | true => cases chooseFrame p s <;> rfl

/-- The service of the transmitters does not read the count of meetings. -/
theorem serveAll_setRaces (n : Nat) (s : State) : serveAll (setRaces n s) = setRaces n (serveAll s) := by
  simp only [serveAll, serve_setRaces]

/-! #### The MAP KEYS taken -/

theorem mapKeysTaken_serveAll {u : State} {p : Port} {r : Request} {es : List (Key × Option Group)} (hu : Served u) (hr : r.port = p) :
    MapKeysTaken u (serveAll (takeByOwner { req := r, ask := .mapKeys es } (setHanded p none u))) p r es := by
  subst hr
  have hlive : requestLive (setHanded r.port none u) r = isLive u r.port r.session := rfl
  obtain ⟨hkeys, hdisp⟩ := foldl_remapKey_congr es (s := u) (t := setHanded r.port none u) rfl rfl rfl
  have htake : isLive u r.port r.session = true → takeByOwner { req := r, ask := .mapKeys es } (setHanded r.port none u) =
      replyTo r .ok (.transition (es.foldl remapKey u).keys.transition) (es.foldl remapKey (setHanded r.port none u)) := fun h => by
    rw [takeByOwner, hlive, if_pos h, ← hkeys]
    rfl
  have hdrop : isLive u r.port r.session = false → takeByOwner { req := r, ask := .mapKeys es } (setHanded r.port none u) =
      setHanded r.port none u := fun h => by
    rw [takeByOwner, hlive, h]
    rfl
  have hkeeps : ∀ c, c = takeByOwner { req := r, ask := .mapKeys es } (setHanded r.port none u) →
      c.mgr = { u.mgr with handed := u.mgr.handed.set r.port none } ∧ c.scan = u.scan ∧ c.groups = u.groups ∧ c.lamps = u.lamps ∧
        c.pins = u.pins ∧ c.pending = u.pending ∧ c.delivery = u.delivery ∧ ∀ q, q ≠ r.port → c.link.get q = u.link.get q := by
    rintro c rfl
    cases h : isLive u r.port r.session with
    | true =>
      rw [htake h]
      refine ⟨by simp [setHanded], by simp, by simp, by simp, by simp, by simp, by simp, fun q hq => ?_⟩
      rw [replyTo_link_ne hq]
      simp
    | false =>
      rw [hdrop h]
      exact ⟨rfl, rfl, rfl, rfl, rfl, rfl, rfl, fun _ _ => rfl⟩
  obtain ⟨k1, k2, k3, k4, k5, k6, k7, k8⟩ := hkeeps _ rfl
  refine ⟨by rw [serveAll_mgr, k1], by rw [serveAll_scan, k2], by rw [serveAll_groups, k3], by rw [serveAll_lamps, k4],
    by rw [serveAll_pins, k5], by rw [serveAll_pending, k6], fun q hq => hu.portKept_serveAll (k8 q hq) (by rw [k7]), fun h => ?_, fun h => ?_⟩
  · refine ⟨?_, ?_, fun hheld => ?_⟩
    · rw [serveAll_keys, htake h, replyTo_keys, hkeys]
    · rw [serveAll_disp, htake h, replyTo_disp, hdisp]
    · have hserved := servedIn_serveAll r.port (takeByOwner { req := r, ask := .mapKeys es } (setHanded r.port none u))
      have hlink : (takeByOwner { req := r, ask := .mapKeys es } (setHanded r.port none u)).link.get r.port =
          (u.link.get r.port).withReply (answerTo r .ok (.transition (es.foldl remapKey u).keys.transition)) := by
        have hlive' : isLive (es.foldl remapKey (setHanded r.port none u)) r.port r.session = true := by
          rw [isLive_congr (s := u) (by simp)]
          exact h
        have hheld' : 0 < ((es.foldl remapKey (setHanded r.port none u)).link.get r.port).held := by simpa using hheld
        have hp : replyTo r .ok (.transition (es.foldl remapKey u).keys.transition) (es.foldl remapKey (setHanded r.port none u)) =
            updLink r.port (Link.withReply (answerTo r .ok (.transition (es.foldl remapKey u).keys.transition)))
              (es.foldl remapKey (setHanded r.port none u)) :=
          produce_live (r := answerTo r .ok (.transition (es.foldl remapKey u).keys.transition)) hlive' hheld'
        rw [htake h, hp, updLink_get_same]
        simp
      rw [hlink, k7] at hserved
      exact hserved
  · rw [hdrop h]
    exact ⟨serveAll_keys _, serveAll_disp _, hu.portKept_serveAll rfl rfl⟩

end Sys2Proof.Machine

/-! ### What follows the last routing with a MAP KEYS waiting (R41, R62; log 6) -/

namespace Sys2Proof.Machine

/-- Between s and u nothing has followed but stages of a scan frame's completion, and the MAP KEYS of the port if it does not wait any more. -/
structure MapKeysLeft (s : State) (p : Port) (r : Request) (es : List (Key × Option Group)) (u : State) : Prop where
  served : Served u
  handed : u.mgr.handed.get p = some { req := r, ask := .mapKeys es } ∨ u.mgr.handed.get p = none
  others : ∀ q, q ≠ p → u.mgr.handed.get q = s.mgr.handed.get q
  inbox : u.mgr.inbox = s.mgr.inbox
  snapshots : u.disp.snapshots = s.disp.snapshots
  halt : u.scan.phase = .haltWaiting ∨ u.scan.phase = .haltRouting → u.scan.halt.isSome = true

section

variable {s u : State} {p : Port} {r : Request} {es : List (Key × Option Group)} (hs : internal s = none) (ho : OnlySnapshotsWait s (· ≠ p))
  (hi : s.mgr.inbox.get p = []) (h : MapKeysLeft s p r es u)

/-- A stage of the scan frame's completion leaves the MAP KEYS where it is. -/
theorem MapKeysLeft.of_stage {s u v : State} {p : Port} {r : Request} {es : List (Key × Option Group)} (h : MapKeysLeft s p r es u)
    (hv : Served v) (hm : v.mgr = u.mgr) (hd : v.disp.snapshots = u.disp.snapshots)
    (hh : v.scan.phase = .haltWaiting ∨ v.scan.phase = .haltRouting → v.scan.halt.isSome = true) : MapKeysLeft s p r es v where
  served := hv
  handed := by rw [hm]; exact h.handed
  others q hq := by rw [hm]; exact h.others q hq
  inbox := by rw [hm]; exact h.inbox
  snapshots := hd.trans h.snapshots
  halt := hh

theorem MapKeysLeft.of_races {s u : State} {p : Port} {r : Request} {es : List (Key × Option Group)} (h : MapKeysLeft s p r es u) (n : Nat) :
    MapKeysLeft s p r es (setRaces n u) where
  served q hi := chooseFrame_none_congr (s := u) (t := setRaces n u) rfl rfl (h.served q hi)
  handed := h.handed
  others := h.others
  inbox := h.inbox
  snapshots := h.snapshots
  halt := h.halt

include hs ho hi h

theorem MapKeysLeft.managerEvent : managerEvent u = none := by
  have hno := managerEvent_eq_none.mp (internal_eq_none.mp hs).2.2
  rw [managerEvent_eq_none]
  intro q
  by_cases hq : q = p
  · subst hq
    rw [nextRequest, h.inbox, hi]
    split <;> trivial
  · rw [← hno q, nextRequest, nextRequest, h.others q hq, h.inbox]

/-- The one request that can be taken is the MAP KEYS, with no transition waiting. -/
theorem MapKeysLeft.ownerEvent {e : State} (he : ownerEvent u = some e) :
    u.disp.waiting = [] ∧ u.mgr.handed.get p = some { req := r, ask := .mapKeys es } ∧
      e = takeByOwner { req := r, ask := .mapKeys es } (setHanded p none u) := by
  obtain ⟨q, x, hx, hready, rfl⟩ := ownerEvent_cases he
  by_cases hq : q = p
  · subst hq
    rcases h.handed with e | e
    · cases e.symm.trans hx
      exact ⟨List.isEmpty_iff.mp hready, e, rfl⟩
    · cases e.symm.trans hx
  · have hno := readyRequest_snapshots ho hs h.snapshots hq (h.others q hq)
    rw [readyRequest, Option.filter_eq_none_iff] at hno
    exact absurd hready (hno x hx)

omit hs ho hi in
/-- With nothing left to follow either a transition waits, or everything has been taken. -/
theorem MapKeysLeft.quiet (hq : internal u = none) : FollowsWithMapKeys p r es u u := by
  by_cases hw : u.disp.waiting = []
  · obtain ⟨hscan, hown, _⟩ := internal_eq_none.mp hq
    rcases scannerEvent_eq_none.mp hscan with e | ⟨h1, h2, h3⟩
    · exact absurd hw e
    · refine .nothingLeft ?_ h1 h2 h3
      rcases h.handed with e | e
      · have hready := ownerEvent_eq_none.mp hown p
        rw [readyRequest, e, Option.filter_some, ownerReady, hw] at hready
        cases hready
      · exact e
  · exact .transitionWaits hw

omit hs ho hi in
/-- A stage of the scan frame's completion. -/
theorem MapKeysLeft.scannerEvent {e : State} (he : scannerEvent u = some e) (n : Nat) :
    MapKeysLeft s p r es (setRaces n (serveAll e)) ∧
      ∀ t, FollowsWithMapKeys p r es (setRaces n (serveAll e)) t → FollowsWithMapKeys p r es u t := by
  have hw : u.disp.waiting = [] := by
    by_contra hne
    rw [scannerEvent_waiting hne] at he
    cases he
  have hphase : u.scan.phase = .imageWaiting ∨ u.scan.phase = .haltWaiting ∨ u.scan.phase = .haltRouting := by
    by_contra hne
    simp only [not_or] at hne
    rw [scannerEvent_eq_none.mpr (Or.inr hne)] at he
    cases he
  rcases hphase with hp | hp | hp
  · rw [scannerEvent_image hw hp] at he
    cases he
    cases hh : u.scan.halt with
    | none =>
      have ht : ImageTaken u (setRaces n (serveAll (afterImage (takeImage u)))) := imageTaken_serveAll h.served hh
      refine ⟨(h.of_stage (served_serveAll _) (by simp) (by simp) fun e => ?_).of_races n, fun t hf => .image hw hp hh ht hf⟩
      obtain ⟨_, _, _, _, _, _, _, hscan⟩ := ht
      have hphase : (serveAll (afterImage (takeImage u))).scan.phase = .idle ∨ (serveAll (afterImage (takeImage u))).scan.phase = .slot 0 := by
        split at hscan
        · exact Or.inl (congrArg Scanner.phase hscan.1)
        · exact Or.inr (congrArg Scanner.phase hscan.1)
      rcases hphase with e' | e' <;> rw [e'] at e <;> rcases e with e | e <;> cases e
    | some x =>
      obtain ⟨_, _, ksnap, kdelivery, _, klink, kmgr, _⟩ := takeImage_keeps u
      have hsame : serveAll (imageTakenToHalt u) = imageTakenToHalt u := h.served.serveAll_eq klink kdelivery
      rw [afterImage_toHalt (by rw [hh]; rfl), hsame]
      have hserved : Served (imageTakenToHalt u) := by
        rw [← hsame]
        exact served_serveAll _
      exact ⟨(h.of_stage hserved kmgr ksnap fun _ => by rw [imageTakenToHalt, hh]; rfl).of_races n,
        fun t hf => .imageBeforeHalt hw hp (by rw [hh]; nofun) rfl hf⟩
  · obtain ⟨_, _, ksnap, kdelivery, _, klink, kmgr, _⟩ := takeHalt_keeps u
    rw [scannerEvent_haltWaiting hw hp] at he
    obtain rfl : haltTakenFrom u = e := Option.some.inj he
    have hsame : serveAll (haltTakenFrom u) = haltTakenFrom u := h.served.serveAll_eq klink kdelivery
    have hserved : Served (haltTakenFrom u) := by
      rw [← hsame]
      exact served_serveAll _
    rw [hsame]
    exact ⟨(h.of_stage hserved kmgr ksnap fun _ => h.halt (Or.inl hp)).of_races n, fun t hf => .halt hw hp rfl hf⟩
  · obtain ⟨x, hx⟩ := Option.isSome_iff_exists.mp (h.halt (Or.inr hp))
    rw [scannerEvent_haltRouting hw hp] at he
    cases he
    have ht : HaltEnded u (setRaces n (serveAll (endHalt u))) x := haltEnded_serveAll h.served hx
    obtain ⟨hscan, _, hdisp, _, _, hmgr, _⟩ := haltEnded_serveAll h.served hx
    refine ⟨(h.of_stage (served_serveAll _) hmgr (by rw [hdisp]) fun e => ?_).of_races n, fun t hf => .haltEnd hw hp hx ht hf⟩
    rw [hscan] at e
    rcases e with e | e <;> cases e

/-- The MAP KEYS. -/
theorem MapKeysLeft.mapKeys (hr : r.port = p) {e : State} (he : Machine.ownerEvent u = some e) (n : Nat) :
    MapKeysLeft s p r es (setRaces n (serveAll e)) ∧
      ∀ t, FollowsWithMapKeys p r es (setRaces n (serveAll e)) t → FollowsWithMapKeys p r es u t := by
  obtain ⟨hw, hx, rfl⟩ := h.ownerEvent hs ho hi he
  have ht : MapKeysTaken u (setRaces n (serveAll (takeByOwner { req := r, ask := .mapKeys es } (setHanded p none u)))) p r es :=
    mapKeysTaken_serveAll h.served hr
  have hsnap : (takeByOwner { req := r, ask := .mapKeys es } (setHanded p none u)).disp.snapshots = u.disp.snapshots := by
    unfold takeByOwner
    split
    · simp [carryOut, takeMapKeys]
    · rfl
  obtain ⟨hmgr, hscan, _⟩ := mapKeysTaken_serveAll (es := es) h.served hr
  refine ⟨MapKeysLeft.of_races ⟨served_serveAll _, Or.inr (by rw [hmgr, PerPort.get_set_same]), fun q hq => ?_, by rw [hmgr]; exact h.inbox, ?_,
    fun e => ?_⟩ n, fun t hf => .mapKeys hw hx ht hf⟩
  · rw [hmgr, PerPort.get_set_ne _ hq]
    exact h.others q hq
  · rw [← h.snapshots, serveAll_disp, hsnap]
  · rw [hscan] at e ⊢
    exact h.halt e

end

/-- What follows while a MAP KEYS is left comes to an end in this way. -/
theorem follows_mapKeysLeft {s : State} {p : Port} {r : Request} {es : List (Key × Option Group)} (hs : internal s = none)
    (ho : OnlySnapshotsWait s (· ≠ p)) (hi : s.mgr.inbox.get p = []) (hr : r.port = p) (m : Nat) :
    ∀ u, internalMeasure u ≤ m → MapKeysLeft s p r es u → ∃ t, Follows u t ∧ FollowsWithMapKeys p r es u t := by
  induction m with
  | zero =>
    intro u hm h
    have hq : internal u = none := by
      cases hint : internal u with
      | none => rfl
      | some u' =>
        have := internalMeasure_internal hint
        omega
    exact ⟨u, .done hq, h.quiet hq⟩
  | succ m ih =>
    intro u hm h
    cases hint : internal u with
    | none => exact ⟨u, .done hint, h.quiet hint⟩
    | some u' =>
      have hlt := internalMeasure_internal hint
      have hserved := internalMeasure_serveAll u'
      obtain ⟨e, n, rfl, he⟩ := internal_cases hint
      have hraces : serveAll (setRaces n e) = setRaces n (serveAll e) := serveAll_setRaces n e
      have hnext : MapKeysLeft s p r es (setRaces n (serveAll e)) ∧
          ∀ t, FollowsWithMapKeys p r es (setRaces n (serveAll e)) t → FollowsWithMapKeys p r es u t := by
        rcases he with he | he | he
        · exact h.scannerEvent he n
        · exact h.mapKeys hs ho hi hr he n
        · rw [h.managerEvent hs ho hi] at he
          cases he
      obtain ⟨hleft, hstep⟩ := hnext
      rw [← hraces] at hleft hstep
      obtain ⟨t, hf, ht⟩ := ih _ (by rw [setRaces, hserved]; omega) hleft
      exact ⟨t, .step hint hf, hstep t ht⟩

/-- Settles O34. -/
theorem waitingRequests : Obligations.WaitingRequests := by
  refine ⟨fun s p i f ask hr hi hd hrole hcase => ?_, fun s p i f x hs ho hseq hpl hx hack hi hta hto => ?_,
    fun s p tr r es hw hs hp hx hr ho hi => ?_⟩
  · have hready : ownerReady s p ask = false := by
      rcases hcase with ⟨⟨es, rfl⟩, hne⟩ | ⟨⟨g, rfl⟩, hne⟩ | ⟨hask, hphase, hh⟩
      · rw [ownerReady, List.isEmpty_eq_false_iff]
        exact hne
      · rw [ownerReady, Option.isNone_eq_false_iff, Option.isSome_iff_ne_none]
        exact hne
      · rw [scanRequest_canWait hask]
        simp only [Scanner.completing, hphase, hh]
        rfl
    exact ⟨_, handed_request hr hi hd hrole hready,
      accepted_waits hr.1.1 rfl rfl (by simp [SamePanel]) (by simp [setHanded]) ⟨by simp [SamePanel], rfl, rfl⟩⟩
  · exact ⟨_, queued_request hs ho hseq hpl hx hack hi hta hto,
      accepted_waits hs rfl rfl (by simp [SamePanel]) (by simp [setInbox, arrived]) ⟨by simp [SamePanel], rfl, rfl⟩⟩
  · have hrouted := routed_serveAll hw hs.2
    obtain ⟨hdisp, hscan, _, _, _, hmgr, _⟩ := routed_serveAll hw hs.2
    obtain ⟨_, _, _, hhalt, _⟩ := hp
    have hleft : MapKeysLeft s p r es (serveAll (routeNext s)) :=
      ⟨served_serveAll _, Or.inl (by rw [hmgr, hx]), fun q _ => by rw [hmgr], by rw [hmgr], by rw [hdisp], by rw [hscan]; exact hhalt⟩
    obtain ⟨t, hf, ht⟩ := follows_mapKeysLeft hs.1 ho hi hr _ _ le_rfl hleft
    exact ⟨_, t, exec_routeTransition hf, hrouted, ht⟩

end Sys2Proof.Machine
